-- ==== Sys2Proof/Word.lean ====
section
/-! DEFINITION. Word.lean: the word types of the hardware. Registers, operands and addresses are 32 bits, an ARM
instruction is 32 bits, a Thumb instruction is 16 bits, memory is addressed by the byte (00_scope.md R8). -/
namespace Sys2Proof

/-- One byte of memory (R8). -/
abbrev Byte := BitVec 8

/-- A Thumb instruction, or the payload of a halfword access (R8). -/
abbrev Half := BitVec 16

/-- A register, an address, or an ARM instruction (R8). -/
abbrev Word := BitVec 32

end Sys2Proof
end

