-- ==== Sys2Proof/Config.lean ====
section
/-! DEFINITION. Config.lean: the parameters of 00_scope.md R9, and the functions the spec leaves open.

A parameter that is a datum is a field of `Config`; the machine's state carries one (`State.cfg`), no instruction changes it
(R10), and a statement about every state is therefore a statement about every configuration (log 4). A function the
spec leaves open is an `opaque` constant: it has no body, so nothing can be proved about its values (log 5, 6, 8). -/
namespace Sys2Proof

/-- The seven processor modes (10_state.md R23). -/
inductive Mode where
  | usr | fiq | irq | svc | abt | und | sys
deriving DecidableEq, Repr

/-- The policy for a misaligned data access, `MISALIGN` (20_memory.md R70). -/
inductive Misalign where
  /-- The step faults `Misaligned` (the spec's default, D5). -/
  | fault
  /-- The rotating behaviour of R71, for `CPSR.E = 0`. -/
  | arm7
  /-- The access is made at the exact address (R72). -/
  | plainBytes
deriving DecidableEq, Repr

/-- `STORED_PC_OFFSET`, one of 8 and 12 (R9, D22). -/
inductive StoredPc where
  | plus8 | plus12
deriving DecidableEq, Repr

/-- `SWI_NUMBER` (47_swi_and_undefined.md R300): the two conventions the rule names, and any other function. -/
inductive SwiNumber where
  /-- The source's register convention: the number is `R[k]`. -/
  | register (k : Fin 15)
  /-- The comment-field convention: bits 23:16 of an ARM SWI, bits 7:0 of a Thumb SWI. -/
  | commentField
  /-- Any function of the state and the instruction (`Config.swiNumberFn`). -/
  | unspecified
deriving DecidableEq, Repr

/-- The parameters of R9 that are data. -/
structure Config where
  /-- `MEM_SIZE`, the capacity of internal memory in bytes (20_memory.md R62). -/
  memSize : Nat
  /-- `BIOS_BASE`, where the loader copies the image (70_reset_and_hazards.md R434). -/
  biosBase : Word
  /-- `STACK_BASE`, the SP of the initial mode at creation (R430). -/
  stackBase : Word
  /-- `INIT_MODE` (R431, D3). -/
  initMode : Mode
  /-- `INIT_E` (R432, D48): false is little-endian. -/
  initE : Bool
  /-- `MISALIGN` (20_memory.md R70). -/
  misalign : Misalign
  /-- `STORED_PC_OFFSET` (D22). -/
  storedPc : StoredPc
  /-- `SWI_NUMBER` (R300). -/
  swiNumber : SwiNumber
  /-- The six service numbers (D15). -/
  swiExit : Word
  swiDiv : Word
  swiSqrt : Word
  swiAtan : Word
  swiAtan2 : Word
  swiBgAffine : Word
deriving DecidableEq, Repr

/-- The service numbers, in the order of R301's tests. -/
def Config.services (k : Config) : List Word :=
  [k.swiExit, k.swiDiv, k.swiSqrt, k.swiAtan, k.swiAtan2, k.swiBgAffine]

/-- What R9 demands of the open parameters: `MEM_SIZE` a multiple of 4 and at most 2^32, the service numbers
pairwise distinct. -/
abbrev Config.WellFormed (k : Config) : Prop :=
  k.memSize % 4 = 0 ∧ k.memSize ≤ 2 ^ 32 ∧ k.services.Nodup

/-- The configuration `State.reset` is created with. The decided parameters have the spec's decisions (System, E = 0,
`Fault`); the OPEN ones have the values of 95_test_vectors.md section 0, which the source does not give.
DESIGN CHOICE, unsafe for a claim about the reset state alone (log 4, log 5). -/
def Config.reset : Config where
  memSize := 0x4000
  biosBase := 0
  stackBase := 0x4000
  initMode := .sys
  initE := false
  misalign := .fault
  storedPc := .plus12
  swiNumber := .commentField
  swiExit := 0x00
  swiDiv := 0x06
  swiSqrt := 0x08
  swiAtan := 0x09
  swiAtan2 := 0x0A
  swiBgAffine := 0x0E

/-- FREE VALUE. The device oracle (20_memory.md R76, I21): the k-th answer given by a request channel. A channel read takes
the answer numbered by `State.draws` and advances that counter, so no two reads share an answer by the model's doing (log 6). -/
opaque Config.deviceAnswer (k : Nat) : Word

/-- FREE VALUE. `atanFn` (47_swi_and_undefined.md R306, D19; log 8). -/
opaque Config.atanFn (x : Word) : Word

/-- FREE VALUE. `atan2Fn` (R306, D19; log 8). -/
opaque Config.atan2Fn (x y : Word) : Word

end Sys2Proof
end

