-- ==== Sys2Proof/Syntax.lean ====
section
/-! DEFINITION. Syntax.lean: the instructions, one constructor of `Instr` for each of the 196 rows of spec/opcode_table.json
(121 ARM rows, 75 Thumb rows; a Thumb constructor ends in `T`), with the fields of the row. A field the spec calls ignored
(30_encoding.md R104) is no argument, but for the Rn field of MOV and MVN and the Rd field of the comparisons in the register-shift form, which no meaning reads (log 9).
After `Instr` stand the groups of constructors of one shape, which the statements name. -/
namespace Sys2Proof

/-- A 4-bit register field, R0 to R15 (10_state.md R25). -/
abbrev Reg := Fin 16

/-- A 3-bit Thumb register field, R0 to R7 (R25). -/
abbrev LowReg := Fin 8

/-- A low register as a register (R25). -/
def LowReg.reg (r : LowReg) : Reg := r.castLE (by decide)

/-- The sixteen condition codes, in the order of their numbers (40_core_condition_shifter.md R145). -/
inductive Cond where
  | eq | ne | cs | cc | mi | pl | vs | vc | hi | ls | ge | lt | gt | le | al | nv
deriving DecidableEq, Repr

/-- The four shift types (R150). -/
inductive ShiftType where
  | lsl | lsr | asr | ror
deriving DecidableEq, Repr

/-- The instructions. -/
inductive Instr where
  /-- `AND_imm`: R194, ARM data processing, immediate (R107, R108). -/
  | andImm (c : Cond) (setf : Bool) (rn rd : Reg) (rot : BitVec 4) (imm8 : BitVec 8)
  /-- `AND_rsi`: R194, ARM data processing, register shifted by immediate (R107, R109). -/
  | andRsi (c : Cond) (setf : Bool) (rn rd : Reg) (shiftImm : BitVec 5) (st : ShiftType) (rm : Reg)
  /-- `AND_rsr`: R194, ARM data processing, register shifted by register (R107, R109). -/
  | andRsr (c : Cond) (setf : Bool) (rn rd rs : Reg) (st : ShiftType) (rm : Reg)
  /-- `EOR_imm`: R195, ARM data processing, immediate (R107, R108). -/
  | eorImm (c : Cond) (setf : Bool) (rn rd : Reg) (rot : BitVec 4) (imm8 : BitVec 8)
  /-- `EOR_rsi`: R195, ARM data processing, register shifted by immediate (R107, R109). -/
  | eorRsi (c : Cond) (setf : Bool) (rn rd : Reg) (shiftImm : BitVec 5) (st : ShiftType) (rm : Reg)
  /-- `EOR_rsr`: R195, ARM data processing, register shifted by register (R107, R109). -/
  | eorRsr (c : Cond) (setf : Bool) (rn rd rs : Reg) (st : ShiftType) (rm : Reg)
  /-- `SUB_imm`: R196, ARM data processing, immediate (R107, R108). -/
  | subImm (c : Cond) (setf : Bool) (rn rd : Reg) (rot : BitVec 4) (imm8 : BitVec 8)
  /-- `SUB_rsi`: R196, ARM data processing, register shifted by immediate (R107, R109). -/
  | subRsi (c : Cond) (setf : Bool) (rn rd : Reg) (shiftImm : BitVec 5) (st : ShiftType) (rm : Reg)
  /-- `SUB_rsr`: R196, ARM data processing, register shifted by register (R107, R109). -/
  | subRsr (c : Cond) (setf : Bool) (rn rd rs : Reg) (st : ShiftType) (rm : Reg)
  /-- `RSB_imm`: R197, ARM data processing, immediate (R107, R108). -/
  | rsbImm (c : Cond) (setf : Bool) (rn rd : Reg) (rot : BitVec 4) (imm8 : BitVec 8)
  /-- `RSB_rsi`: R197, ARM data processing, register shifted by immediate (R107, R109). -/
  | rsbRsi (c : Cond) (setf : Bool) (rn rd : Reg) (shiftImm : BitVec 5) (st : ShiftType) (rm : Reg)
  /-- `RSB_rsr`: R197, ARM data processing, register shifted by register (R107, R109). -/
  | rsbRsr (c : Cond) (setf : Bool) (rn rd rs : Reg) (st : ShiftType) (rm : Reg)
  /-- `ADD_imm`: R198, ARM data processing, immediate (R107, R108). -/
  | addImm (c : Cond) (setf : Bool) (rn rd : Reg) (rot : BitVec 4) (imm8 : BitVec 8)
  /-- `ADD_rsi`: R198, ARM data processing, register shifted by immediate (R107, R109). -/
  | addRsi (c : Cond) (setf : Bool) (rn rd : Reg) (shiftImm : BitVec 5) (st : ShiftType) (rm : Reg)
  /-- `ADD_rsr`: R198, ARM data processing, register shifted by register (R107, R109). -/
  | addRsr (c : Cond) (setf : Bool) (rn rd rs : Reg) (st : ShiftType) (rm : Reg)
  /-- `ADC_imm`: R199, ARM data processing, immediate (R107, R108). -/
  | adcImm (c : Cond) (setf : Bool) (rn rd : Reg) (rot : BitVec 4) (imm8 : BitVec 8)
  /-- `ADC_rsi`: R199, ARM data processing, register shifted by immediate (R107, R109). -/
  | adcRsi (c : Cond) (setf : Bool) (rn rd : Reg) (shiftImm : BitVec 5) (st : ShiftType) (rm : Reg)
  /-- `ADC_rsr`: R199, ARM data processing, register shifted by register (R107, R109). -/
  | adcRsr (c : Cond) (setf : Bool) (rn rd rs : Reg) (st : ShiftType) (rm : Reg)
  /-- `SBC_imm`: R200, ARM data processing, immediate (R107, R108). -/
  | sbcImm (c : Cond) (setf : Bool) (rn rd : Reg) (rot : BitVec 4) (imm8 : BitVec 8)
  /-- `SBC_rsi`: R200, ARM data processing, register shifted by immediate (R107, R109). -/
  | sbcRsi (c : Cond) (setf : Bool) (rn rd : Reg) (shiftImm : BitVec 5) (st : ShiftType) (rm : Reg)
  /-- `SBC_rsr`: R200, ARM data processing, register shifted by register (R107, R109). -/
  | sbcRsr (c : Cond) (setf : Bool) (rn rd rs : Reg) (st : ShiftType) (rm : Reg)
  /-- `RSC_imm`: R201, ARM data processing, immediate (R107, R108). -/
  | rscImm (c : Cond) (setf : Bool) (rn rd : Reg) (rot : BitVec 4) (imm8 : BitVec 8)
  /-- `RSC_rsi`: R201, ARM data processing, register shifted by immediate (R107, R109). -/
  | rscRsi (c : Cond) (setf : Bool) (rn rd : Reg) (shiftImm : BitVec 5) (st : ShiftType) (rm : Reg)
  /-- `RSC_rsr`: R201, ARM data processing, register shifted by register (R107, R109). -/
  | rscRsr (c : Cond) (setf : Bool) (rn rd rs : Reg) (st : ShiftType) (rm : Reg)
  /-- `TST_imm`: R202, ARM data processing, immediate (R107, R108). -/
  | tstImm (c : Cond) (rn : Reg) (rot : BitVec 4) (imm8 : BitVec 8)
  /-- `TST_rsi`: R202, ARM data processing, register shifted by immediate (R107, R109). -/
  | tstRsi (c : Cond) (rn : Reg) (shiftImm : BitVec 5) (st : ShiftType) (rm : Reg)
  /-- `TST_rsr`: R202, ARM data processing, register shifted by register (R107, R109). -/
  | tstRsr (c : Cond) (rn rd rs : Reg) (st : ShiftType) (rm : Reg)
  /-- `TEQ_imm`: R203, ARM data processing, immediate (R107, R108). -/
  | teqImm (c : Cond) (rn : Reg) (rot : BitVec 4) (imm8 : BitVec 8)
  /-- `TEQ_rsi`: R203, ARM data processing, register shifted by immediate (R107, R109). -/
  | teqRsi (c : Cond) (rn : Reg) (shiftImm : BitVec 5) (st : ShiftType) (rm : Reg)
  /-- `TEQ_rsr`: R203, ARM data processing, register shifted by register (R107, R109). -/
  | teqRsr (c : Cond) (rn rd rs : Reg) (st : ShiftType) (rm : Reg)
  /-- `CMP_imm`: R204, ARM data processing, immediate (R107, R108). -/
  | cmpImm (c : Cond) (rn : Reg) (rot : BitVec 4) (imm8 : BitVec 8)
  /-- `CMP_rsi`: R204, ARM data processing, register shifted by immediate (R107, R109). -/
  | cmpRsi (c : Cond) (rn : Reg) (shiftImm : BitVec 5) (st : ShiftType) (rm : Reg)
  /-- `CMP_rsr`: R204, ARM data processing, register shifted by register (R107, R109). -/
  | cmpRsr (c : Cond) (rn rd rs : Reg) (st : ShiftType) (rm : Reg)
  /-- `CMN_imm`: R205, ARM data processing, immediate (R107, R108). -/
  | cmnImm (c : Cond) (rn : Reg) (rot : BitVec 4) (imm8 : BitVec 8)
  /-- `CMN_rsi`: R205, ARM data processing, register shifted by immediate (R107, R109). -/
  | cmnRsi (c : Cond) (rn : Reg) (shiftImm : BitVec 5) (st : ShiftType) (rm : Reg)
  /-- `CMN_rsr`: R205, ARM data processing, register shifted by register (R107, R109). -/
  | cmnRsr (c : Cond) (rn rd rs : Reg) (st : ShiftType) (rm : Reg)
  /-- `ORR_imm`: R206, ARM data processing, immediate (R107, R108). -/
  | orrImm (c : Cond) (setf : Bool) (rn rd : Reg) (rot : BitVec 4) (imm8 : BitVec 8)
  /-- `ORR_rsi`: R206, ARM data processing, register shifted by immediate (R107, R109). -/
  | orrRsi (c : Cond) (setf : Bool) (rn rd : Reg) (shiftImm : BitVec 5) (st : ShiftType) (rm : Reg)
  /-- `ORR_rsr`: R206, ARM data processing, register shifted by register (R107, R109). -/
  | orrRsr (c : Cond) (setf : Bool) (rn rd rs : Reg) (st : ShiftType) (rm : Reg)
  /-- `MOV_imm`: R207, ARM data processing, immediate (R107, R108). -/
  | movImm (c : Cond) (setf : Bool) (rd : Reg) (rot : BitVec 4) (imm8 : BitVec 8)
  /-- `MOV_rsi`: R207, ARM data processing, register shifted by immediate (R107, R109). -/
  | movRsi (c : Cond) (setf : Bool) (rd : Reg) (shiftImm : BitVec 5) (st : ShiftType) (rm : Reg)
  /-- `MOV_rsr`: R207, ARM data processing, register shifted by register (R107, R109). -/
  | movRsr (c : Cond) (setf : Bool) (rn rd rs : Reg) (st : ShiftType) (rm : Reg)
  /-- `BIC_imm`: R208, ARM data processing, immediate (R107, R108). -/
  | bicImm (c : Cond) (setf : Bool) (rn rd : Reg) (rot : BitVec 4) (imm8 : BitVec 8)
  /-- `BIC_rsi`: R208, ARM data processing, register shifted by immediate (R107, R109). -/
  | bicRsi (c : Cond) (setf : Bool) (rn rd : Reg) (shiftImm : BitVec 5) (st : ShiftType) (rm : Reg)
  /-- `BIC_rsr`: R208, ARM data processing, register shifted by register (R107, R109). -/
  | bicRsr (c : Cond) (setf : Bool) (rn rd rs : Reg) (st : ShiftType) (rm : Reg)
  /-- `MVN_imm`: R209, ARM data processing, immediate (R107, R108). -/
  | mvnImm (c : Cond) (setf : Bool) (rd : Reg) (rot : BitVec 4) (imm8 : BitVec 8)
  /-- `MVN_rsi`: R209, ARM data processing, register shifted by immediate (R107, R109). -/
  | mvnRsi (c : Cond) (setf : Bool) (rd : Reg) (shiftImm : BitVec 5) (st : ShiftType) (rm : Reg)
  /-- `MVN_rsr`: R209, ARM data processing, register shifted by register (R107, R109). -/
  | mvnRsr (c : Cond) (setf : Bool) (rn rd rs : Reg) (st : ShiftType) (rm : Reg)
  /-- `B`: R180, ARM branch (R120). -/
  | b (c : Cond) (offset24 : BitVec 24)
  /-- `BL`: R181, ARM branch (R120). -/
  | bl (c : Cond) (offset24 : BitVec 24)
  /-- `BX`: R183, ARM branch and exchange (R116). -/
  | bx (c : Cond) (rm : Reg)
  /-- `BLX_reg`: R184, ARM branch and exchange (R116). -/
  | blxReg (c : Cond) (rm : Reg)
  /-- `MUL`: R231, ARM multiply (R110). -/
  | mul (c : Cond) (setf : Bool) (rd rs rm : Reg)
  /-- `MLA`: R232, ARM multiply (R110). -/
  | mla (c : Cond) (setf : Bool) (rd rn rs rm : Reg)
  /-- `UMULL`: R233, ARM long multiply (R111). -/
  | umull (c : Cond) (setf : Bool) (rdHi rdLo rs rm : Reg)
  /-- `UMLAL`: R234, ARM long multiply (R111). -/
  | umlal (c : Cond) (setf : Bool) (rdHi rdLo rs rm : Reg)
  /-- `SMULL`: R235, ARM long multiply (R111). -/
  | smull (c : Cond) (setf : Bool) (rdHi rdLo rs rm : Reg)
  /-- `SMLAL`: R236, ARM long multiply (R111). -/
  | smlal (c : Cond) (setf : Bool) (rdHi rdLo rs rm : Reg)
  /-- `UMAAL`: R238, ARM UMAAL (R112). -/
  | umaal (c : Cond) (rdHi rdLo rs rm : Reg)
  /-- `SMLAxy`: R237, ARM halfword multiply (R113); refused (R135). -/
  | smlaxy (c : Cond) (rd rn rs : Reg) (y x : Bool) (rm : Reg)
  /-- `SMLAWy`: R239, ARM halfword multiply (R113). -/
  | smlawy (c : Cond) (rd rn rs : Reg) (y : Bool) (rm : Reg)
  /-- `SMULWy`: R240, ARM halfword multiply (R113); refused (R135). -/
  | smulwy (c : Cond) (rd rn rs : Reg) (y : Bool) (rm : Reg)
  /-- `SMLALxy`: R241, ARM halfword multiply (R113). -/
  | smlalxy (c : Cond) (rdHi rdLo rs : Reg) (y x : Bool) (rm : Reg)
  /-- `SMULxy`: R242, ARM halfword multiply (R113). -/
  | smulxy (c : Cond) (rd rs : Reg) (y x : Bool) (rm : Reg)
  /-- `MRS_cpsr`: R250, ARM PSR transfer (R114). -/
  | mrsCpsr (c : Cond) (rd : Reg)
  /-- `MRS_spsr`: R250, ARM PSR transfer (R114). -/
  | mrsSpsr (c : Cond) (rd : Reg)
  /-- `MSR_reg_cpsr`: R252, ARM PSR transfer (R114). -/
  | msrRegCpsr (c : Cond) (mask : BitVec 4) (rm : Reg)
  /-- `MSR_reg_spsr`: R252, ARM PSR transfer (R114). -/
  | msrRegSpsr (c : Cond) (mask : BitVec 4) (rm : Reg)
  /-- `MSR_imm_cpsr`: R252, ARM PSR transfer (R114). -/
  | msrImmCpsr (c : Cond) (mask rot : BitVec 4) (imm8 : BitVec 8)
  /-- `MSR_imm_spsr`: R252, ARM PSR transfer (R114). -/
  | msrImmSpsr (c : Cond) (mask rot : BitVec 4) (imm8 : BitVec 8)
  /-- `SWP`: R275, ARM single data swap (R115). -/
  | swp (c : Cond) (rn rd rm : Reg)
  /-- `SWPB`: R276, ARM single data swap (R115). -/
  | swpb (c : Cond) (rn rd rm : Reg)
  /-- `LDR_imm_pre`: R261, ARM single data transfer (R117). -/
  | ldrImmPre (c : Cond) (u w : Bool) (rn rd : Reg) (imm12 : BitVec 12)
  /-- `LDR_reg_pre`: R261, ARM single data transfer (R117). -/
  | ldrRegPre (c : Cond) (u w : Bool) (rn rd : Reg) (shiftImm : BitVec 5) (st : ShiftType) (rm : Reg)
  /-- `LDR_imm_post`: R261, ARM single data transfer (R117). -/
  | ldrImmPost (c : Cond) (u : Bool) (rn rd : Reg) (imm12 : BitVec 12)
  /-- `LDR_reg_post`: R261, ARM single data transfer (R117). -/
  | ldrRegPost (c : Cond) (u : Bool) (rn rd : Reg) (shiftImm : BitVec 5) (st : ShiftType) (rm : Reg)
  /-- `LDRT_imm`: R265, ARM single data transfer (R117); T form, P = 0 and W = 1. -/
  | ldrtImm (c : Cond) (u : Bool) (rn rd : Reg) (imm12 : BitVec 12)
  /-- `LDRT_reg`: R265, ARM single data transfer (R117); T form, P = 0 and W = 1. -/
  | ldrtReg (c : Cond) (u : Bool) (rn rd : Reg) (shiftImm : BitVec 5) (st : ShiftType) (rm : Reg)
  /-- `STR_imm_pre`: R262, ARM single data transfer (R117). -/
  | strImmPre (c : Cond) (u w : Bool) (rn rd : Reg) (imm12 : BitVec 12)
  /-- `STR_reg_pre`: R262, ARM single data transfer (R117). -/
  | strRegPre (c : Cond) (u w : Bool) (rn rd : Reg) (shiftImm : BitVec 5) (st : ShiftType) (rm : Reg)
  /-- `STR_imm_post`: R262, ARM single data transfer (R117). -/
  | strImmPost (c : Cond) (u : Bool) (rn rd : Reg) (imm12 : BitVec 12)
  /-- `STR_reg_post`: R262, ARM single data transfer (R117). -/
  | strRegPost (c : Cond) (u : Bool) (rn rd : Reg) (shiftImm : BitVec 5) (st : ShiftType) (rm : Reg)
  /-- `STRT_imm`: R265, ARM single data transfer (R117); T form, P = 0 and W = 1. -/
  | strtImm (c : Cond) (u : Bool) (rn rd : Reg) (imm12 : BitVec 12)
  /-- `STRT_reg`: R265, ARM single data transfer (R117); T form, P = 0 and W = 1. -/
  | strtReg (c : Cond) (u : Bool) (rn rd : Reg) (shiftImm : BitVec 5) (st : ShiftType) (rm : Reg)
  /-- `LDRB_imm_pre`: R263, ARM single data transfer (R117). -/
  | ldrbImmPre (c : Cond) (u w : Bool) (rn rd : Reg) (imm12 : BitVec 12)
  /-- `LDRB_reg_pre`: R263, ARM single data transfer (R117). -/
  | ldrbRegPre (c : Cond) (u w : Bool) (rn rd : Reg) (shiftImm : BitVec 5) (st : ShiftType) (rm : Reg)
  /-- `LDRB_imm_post`: R263, ARM single data transfer (R117). -/
  | ldrbImmPost (c : Cond) (u : Bool) (rn rd : Reg) (imm12 : BitVec 12)
  /-- `LDRB_reg_post`: R263, ARM single data transfer (R117). -/
  | ldrbRegPost (c : Cond) (u : Bool) (rn rd : Reg) (shiftImm : BitVec 5) (st : ShiftType) (rm : Reg)
  /-- `LDRBT_imm`: R265, ARM single data transfer (R117); T form, P = 0 and W = 1. -/
  | ldrbtImm (c : Cond) (u : Bool) (rn rd : Reg) (imm12 : BitVec 12)
  /-- `LDRBT_reg`: R265, ARM single data transfer (R117); T form, P = 0 and W = 1. -/
  | ldrbtReg (c : Cond) (u : Bool) (rn rd : Reg) (shiftImm : BitVec 5) (st : ShiftType) (rm : Reg)
  /-- `STRB_imm_pre`: R264, ARM single data transfer (R117). -/
  | strbImmPre (c : Cond) (u w : Bool) (rn rd : Reg) (imm12 : BitVec 12)
  /-- `STRB_reg_pre`: R264, ARM single data transfer (R117). -/
  | strbRegPre (c : Cond) (u w : Bool) (rn rd : Reg) (shiftImm : BitVec 5) (st : ShiftType) (rm : Reg)
  /-- `STRB_imm_post`: R264, ARM single data transfer (R117). -/
  | strbImmPost (c : Cond) (u : Bool) (rn rd : Reg) (imm12 : BitVec 12)
  /-- `STRB_reg_post`: R264, ARM single data transfer (R117). -/
  | strbRegPost (c : Cond) (u : Bool) (rn rd : Reg) (shiftImm : BitVec 5) (st : ShiftType) (rm : Reg)
  /-- `STRBT_imm`: R265, ARM single data transfer (R117); T form, P = 0 and W = 1. -/
  | strbtImm (c : Cond) (u : Bool) (rn rd : Reg) (imm12 : BitVec 12)
  /-- `STRBT_reg`: R265, ARM single data transfer (R117); T form, P = 0 and W = 1. -/
  | strbtReg (c : Cond) (u : Bool) (rn rd : Reg) (shiftImm : BitVec 5) (st : ShiftType) (rm : Reg)
  /-- `STRH_imm`: R270, ARM halfword and signed data transfer (R118). -/
  | strhImm (c : Cond) (p u w : Bool) (rn rd : Reg) (immHi immLo : BitVec 4)
  /-- `STRH_reg`: R270, ARM halfword and signed data transfer (R118). -/
  | strhReg (c : Cond) (p u w : Bool) (rn rd rm : Reg)
  /-- `LDRH_imm`: R267, ARM halfword and signed data transfer (R118). -/
  | ldrhImm (c : Cond) (p u w : Bool) (rn rd : Reg) (immHi immLo : BitVec 4)
  /-- `LDRH_reg`: R267, ARM halfword and signed data transfer (R118). -/
  | ldrhReg (c : Cond) (p u w : Bool) (rn rd rm : Reg)
  /-- `LDRSB_imm`: R268, ARM halfword and signed data transfer (R118). -/
  | ldrsbImm (c : Cond) (p u w : Bool) (rn rd : Reg) (immHi immLo : BitVec 4)
  /-- `LDRSB_reg`: R268, ARM halfword and signed data transfer (R118). -/
  | ldrsbReg (c : Cond) (p u w : Bool) (rn rd rm : Reg)
  /-- `LDRSH_imm`: R269, ARM halfword and signed data transfer (R118). -/
  | ldrshImm (c : Cond) (p u w : Bool) (rn rd : Reg) (immHi immLo : BitVec 4)
  /-- `LDRSH_reg`: R269, ARM halfword and signed data transfer (R118). -/
  | ldrshReg (c : Cond) (p u w : Bool) (rn rd rm : Reg)
  /-- `STMIA`: R291, ARM block data transfer (R119). -/
  | stmia (c : Cond) (w : Bool) (rn : Reg) (list : BitVec 16)
  /-- `STMIB`: R291, ARM block data transfer (R119). -/
  | stmib (c : Cond) (w : Bool) (rn : Reg) (list : BitVec 16)
  /-- `STMDA`: R291, ARM block data transfer (R119). -/
  | stmda (c : Cond) (w : Bool) (rn : Reg) (list : BitVec 16)
  /-- `STMDB`: R291, ARM block data transfer (R119). -/
  | stmdb (c : Cond) (w : Bool) (rn : Reg) (list : BitVec 16)
  /-- `LDMIA`: R292, ARM block data transfer (R119). -/
  | ldmia (c : Cond) (w : Bool) (rn : Reg) (list : BitVec 16)
  /-- `LDMIB`: R292, ARM block data transfer (R119). -/
  | ldmib (c : Cond) (w : Bool) (rn : Reg) (list : BitVec 16)
  /-- `LDMDA`: R292, ARM block data transfer (R119). -/
  | ldmda (c : Cond) (w : Bool) (rn : Reg) (list : BitVec 16)
  /-- `LDMDB`: R292, ARM block data transfer (R119). -/
  | ldmdb (c : Cond) (w : Bool) (rn : Reg) (list : BitVec 16)
  /-- `STMIA_usr`: R293, ARM block data transfer (R119). -/
  | stmiaUsr (c : Cond) (w : Bool) (rn : Reg) (list : BitVec 16)
  /-- `STMIB_usr`: R293, ARM block data transfer (R119). -/
  | stmibUsr (c : Cond) (w : Bool) (rn : Reg) (list : BitVec 16)
  /-- `STMDA_usr`: R293, ARM block data transfer (R119). -/
  | stmdaUsr (c : Cond) (w : Bool) (rn : Reg) (list : BitVec 16)
  /-- `STMDB_usr`: R293, ARM block data transfer (R119). -/
  | stmdbUsr (c : Cond) (w : Bool) (rn : Reg) (list : BitVec 16)
  /-- `LDMIA_rst`: R294, ARM block data transfer (R119). -/
  | ldmiaRst (c : Cond) (w : Bool) (rn : Reg) (list : BitVec 16)
  /-- `LDMIB_rst`: R294, ARM block data transfer (R119). -/
  | ldmibRst (c : Cond) (w : Bool) (rn : Reg) (list : BitVec 16)
  /-- `LDMDA_rst`: R294, ARM block data transfer (R119). -/
  | ldmdaRst (c : Cond) (w : Bool) (rn : Reg) (list : BitVec 16)
  /-- `LDMDB_rst`: R294, ARM block data transfer (R119). -/
  | ldmdbRst (c : Cond) (w : Bool) (rn : Reg) (list : BitVec 16)
  /-- `SWI`: R301, ARM software interrupt (R121). -/
  | swi (c : Cond) (comment : BitVec 24)
  /-- `LSL_imm_T`: R321, Thumb format 1. -/
  | lslImmT (offset5 : BitVec 5) (rs rd : LowReg)
  /-- `LSR_imm_T`: R322, Thumb format 1. -/
  | lsrImmT (offset5 : BitVec 5) (rs rd : LowReg)
  /-- `ASR_imm_T`: R323, Thumb format 1. -/
  | asrImmT (offset5 : BitVec 5) (rs rd : LowReg)
  /-- `ADD_reg_T`: R324, Thumb format 2. -/
  | addRegT (rn rs rd : LowReg)
  /-- `SUB_reg_T`: R325, Thumb format 2. -/
  | subRegT (rn rs rd : LowReg)
  /-- `ADD_imm3_T`: R326, Thumb format 2. -/
  | addImm3T (imm3 : BitVec 3) (rs rd : LowReg)
  /-- `SUB_imm3_T`: R327, Thumb format 2. -/
  | subImm3T (imm3 : BitVec 3) (rs rd : LowReg)
  /-- `MOV_imm_T`: R328, Thumb format 3. -/
  | movImmT (rd : LowReg) (imm8 : BitVec 8)
  /-- `CMP_imm_T`: R329, Thumb format 3. -/
  | cmpImmT (rd : LowReg) (imm8 : BitVec 8)
  /-- `ADD_imm8_T`: R330, Thumb format 3. -/
  | addImm8T (rd : LowReg) (imm8 : BitVec 8)
  /-- `SUB_imm8_T`: R331, Thumb format 3. -/
  | subImm8T (rd : LowReg) (imm8 : BitVec 8)
  /-- `AND_T`: R332, Thumb format 4. -/
  | andT (rs rd : LowReg)
  /-- `EOR_T`: R333, Thumb format 4. -/
  | eorT (rs rd : LowReg)
  /-- `LSL_reg_T`: R334, Thumb format 4. -/
  | lslRegT (rs rd : LowReg)
  /-- `LSR_reg_T`: R335, Thumb format 4. -/
  | lsrRegT (rs rd : LowReg)
  /-- `ASR_reg_T`: R336, Thumb format 4. -/
  | asrRegT (rs rd : LowReg)
  /-- `ADC_T`: R337, Thumb format 4. -/
  | adcT (rs rd : LowReg)
  /-- `SBC_T`: R338, Thumb format 4. -/
  | sbcT (rs rd : LowReg)
  /-- `ROR_T`: R339, Thumb format 4. -/
  | rorT (rs rd : LowReg)
  /-- `TST_T`: R340, Thumb format 4. -/
  | tstT (rs rd : LowReg)
  /-- `NEG_T`: R341, Thumb format 4. -/
  | negT (rs rd : LowReg)
  /-- `CMP_reg_T`: R342, Thumb format 4. -/
  | cmpRegT (rs rd : LowReg)
  /-- `CMN_T`: R343, Thumb format 4. -/
  | cmnT (rs rd : LowReg)
  /-- `ORR_T`: R344, Thumb format 4. -/
  | orrT (rs rd : LowReg)
  /-- `MUL_T`: R345, Thumb format 4. -/
  | mulT (rs rd : LowReg)
  /-- `BIC_T`: R346, Thumb format 4. -/
  | bicT (rs rd : LowReg)
  /-- `MVN_T`: R347, Thumb format 4. -/
  | mvnT (rs rd : LowReg)
  /-- `ADD_hi_T`: R349, Thumb format 5. -/
  | addHiT (h1 h2 : Bool) (rs rd : LowReg)
  /-- `CMP_hi_T`: R350, Thumb format 5. -/
  | cmpHiT (h1 h2 : Bool) (rs rd : LowReg)
  /-- `MOV_hi_T`: R351, Thumb format 5. -/
  | movHiT (h1 h2 : Bool) (rs rd : LowReg)
  /-- `BX_T`: R352, Thumb format 5. -/
  | bxT (h2 : Bool) (rs : LowReg)
  /-- `BX_H1_T`: R352, Thumb format 5. -/
  | bxH1T (h2 : Bool) (rs : LowReg)
  /-- `LDR_pc_T`: R360, Thumb format 6. -/
  | ldrPcT (rd : LowReg) (word8 : BitVec 8)
  /-- `STR_reg_T`: R361, Thumb format 7. -/
  | strRegT (ro rb rd : LowReg)
  /-- `STRB_reg_T`: R362, Thumb format 7. -/
  | strbRegT (ro rb rd : LowReg)
  /-- `LDR_reg_T`: R363, Thumb format 7. -/
  | ldrRegT (ro rb rd : LowReg)
  /-- `LDRB_reg_T`: R364, Thumb format 7. -/
  | ldrbRegT (ro rb rd : LowReg)
  /-- `STRH_reg_T`: R365, Thumb format 8. -/
  | strhRegT (ro rb rd : LowReg)
  /-- `LDSB_reg_T`: R366, Thumb format 8. -/
  | ldsbRegT (ro rb rd : LowReg)
  /-- `LDRH_reg_T`: R367, Thumb format 8. -/
  | ldrhRegT (ro rb rd : LowReg)
  /-- `LDSH_reg_T`: R368, Thumb format 8. -/
  | ldshRegT (ro rb rd : LowReg)
  /-- `STR_imm_T`: R369, Thumb format 9. -/
  | strImmT (offset5 : BitVec 5) (rb rd : LowReg)
  /-- `LDR_imm_T`: R370, Thumb format 9. -/
  | ldrImmT (offset5 : BitVec 5) (rb rd : LowReg)
  /-- `STRB_imm_T`: R371, Thumb format 9. -/
  | strbImmT (offset5 : BitVec 5) (rb rd : LowReg)
  /-- `LDRB_imm_T`: R372, Thumb format 9. -/
  | ldrbImmT (offset5 : BitVec 5) (rb rd : LowReg)
  /-- `STRH_imm_T`: R373, Thumb format 10. -/
  | strhImmT (offset5 : BitVec 5) (rb rd : LowReg)
  /-- `LDRH_imm_T`: R374, Thumb format 10. -/
  | ldrhImmT (offset5 : BitVec 5) (rb rd : LowReg)
  /-- `STR_sp_T`: R375, Thumb format 11. -/
  | strSpT (rd : LowReg) (word8 : BitVec 8)
  /-- `LDR_sp_T`: R376, Thumb format 11. -/
  | ldrSpT (rd : LowReg) (word8 : BitVec 8)
  /-- `ADD_pc_T`: R353, Thumb format 12. -/
  | addPcT (rd : LowReg) (word8 : BitVec 8)
  /-- `ADD_sp_T`: R354, Thumb format 12. -/
  | addSpT (rd : LowReg) (word8 : BitVec 8)
  /-- `ADD_spimm_T`: R355, Thumb format 13. -/
  | addSpimmT (sword7 : BitVec 7)
  /-- `SUB_spimm_T`: R355, Thumb format 13. -/
  | subSpimmT (sword7 : BitVec 7)
  /-- `PUSH_T`: R377, Thumb format 14. -/
  | pushT (r : Bool) (list : BitVec 8)
  /-- `POP_T`: R378, Thumb format 14. -/
  | popT (r : Bool) (list : BitVec 8)
  /-- `STMIA_T`: R379, Thumb format 15. -/
  | stmiaT (rb : LowReg) (list : BitVec 8)
  /-- `LDMIA_T`: R380, Thumb format 15. -/
  | ldmiaT (rb : LowReg) (list : BitVec 8)
  /-- `BEQ_T`: R385, Thumb format 16. -/
  | beqT (soffset8 : BitVec 8)
  /-- `BNE_T`: R385, Thumb format 16. -/
  | bneT (soffset8 : BitVec 8)
  /-- `BCS_T`: R385, Thumb format 16. -/
  | bcsT (soffset8 : BitVec 8)
  /-- `BCC_T`: R385, Thumb format 16. -/
  | bccT (soffset8 : BitVec 8)
  /-- `BMI_T`: R385, Thumb format 16. -/
  | bmiT (soffset8 : BitVec 8)
  /-- `BPL_T`: R385, Thumb format 16. -/
  | bplT (soffset8 : BitVec 8)
  /-- `BVS_T`: R385, Thumb format 16. -/
  | bvsT (soffset8 : BitVec 8)
  /-- `BVC_T`: R385, Thumb format 16. -/
  | bvcT (soffset8 : BitVec 8)
  /-- `BHI_T`: R385, Thumb format 16. -/
  | bhiT (soffset8 : BitVec 8)
  /-- `BLS_T`: R385, Thumb format 16. -/
  | blsT (soffset8 : BitVec 8)
  /-- `BGE_T`: R385, Thumb format 16. -/
  | bgeT (soffset8 : BitVec 8)
  /-- `BLT_T`: R385, Thumb format 16. -/
  | bltT (soffset8 : BitVec 8)
  /-- `BGT_T`: R385, Thumb format 16. -/
  | bgtT (soffset8 : BitVec 8)
  /-- `BLE_T`: R385, Thumb format 16. -/
  | bleT (soffset8 : BitVec 8)
  /-- `SWI_T`: R387, Thumb format 17. -/
  | swiT (value8 : BitVec 8)
  /-- `B_T`: R386, Thumb format 18. -/
  | bT (offset11 : BitVec 11)
  /-- `BL_hi_T`: R388, Thumb format 19. -/
  | blHiT (offset11 : BitVec 11)
  /-- `BL_lo_T`: R389, Thumb format 19. -/
  | blLoT (offset11 : BitVec 11)
deriving DecidableEq, Repr

/-- The condition field of an ARM instruction; none for a Thumb instruction (R101, R142). -/
def Instr.cond? : Instr → Option Cond
  | .andImm c _ _ _ _ _ => some c
  | .andRsi c _ _ _ _ _ _ => some c
  | .andRsr c _ _ _ _ _ _ => some c
  | .eorImm c _ _ _ _ _ => some c
  | .eorRsi c _ _ _ _ _ _ => some c
  | .eorRsr c _ _ _ _ _ _ => some c
  | .subImm c _ _ _ _ _ => some c
  | .subRsi c _ _ _ _ _ _ => some c
  | .subRsr c _ _ _ _ _ _ => some c
  | .rsbImm c _ _ _ _ _ => some c
  | .rsbRsi c _ _ _ _ _ _ => some c
  | .rsbRsr c _ _ _ _ _ _ => some c
  | .addImm c _ _ _ _ _ => some c
  | .addRsi c _ _ _ _ _ _ => some c
  | .addRsr c _ _ _ _ _ _ => some c
  | .adcImm c _ _ _ _ _ => some c
  | .adcRsi c _ _ _ _ _ _ => some c
  | .adcRsr c _ _ _ _ _ _ => some c
  | .sbcImm c _ _ _ _ _ => some c
  | .sbcRsi c _ _ _ _ _ _ => some c
  | .sbcRsr c _ _ _ _ _ _ => some c
  | .rscImm c _ _ _ _ _ => some c
  | .rscRsi c _ _ _ _ _ _ => some c
  | .rscRsr c _ _ _ _ _ _ => some c
  | .tstImm c _ _ _ => some c
  | .tstRsi c _ _ _ _ => some c
  | .tstRsr c _ _ _ _ _ => some c
  | .teqImm c _ _ _ => some c
  | .teqRsi c _ _ _ _ => some c
  | .teqRsr c _ _ _ _ _ => some c
  | .cmpImm c _ _ _ => some c
  | .cmpRsi c _ _ _ _ => some c
  | .cmpRsr c _ _ _ _ _ => some c
  | .cmnImm c _ _ _ => some c
  | .cmnRsi c _ _ _ _ => some c
  | .cmnRsr c _ _ _ _ _ => some c
  | .orrImm c _ _ _ _ _ => some c
  | .orrRsi c _ _ _ _ _ _ => some c
  | .orrRsr c _ _ _ _ _ _ => some c
  | .movImm c _ _ _ _ => some c
  | .movRsi c _ _ _ _ _ => some c
  | .movRsr c _ _ _ _ _ _ => some c
  | .bicImm c _ _ _ _ _ => some c
  | .bicRsi c _ _ _ _ _ _ => some c
  | .bicRsr c _ _ _ _ _ _ => some c
  | .mvnImm c _ _ _ _ => some c
  | .mvnRsi c _ _ _ _ _ => some c
  | .mvnRsr c _ _ _ _ _ _ => some c
  | .b c _ => some c
  | .bl c _ => some c
  | .bx c _ => some c
  | .blxReg c _ => some c
  | .mul c _ _ _ _ => some c
  | .mla c _ _ _ _ _ => some c
  | .umull c _ _ _ _ _ => some c
  | .umlal c _ _ _ _ _ => some c
  | .smull c _ _ _ _ _ => some c
  | .smlal c _ _ _ _ _ => some c
  | .umaal c _ _ _ _ => some c
  | .smlaxy c _ _ _ _ _ _ => some c
  | .smlawy c _ _ _ _ _ => some c
  | .smulwy c _ _ _ _ _ => some c
  | .smlalxy c _ _ _ _ _ _ => some c
  | .smulxy c _ _ _ _ _ => some c
  | .mrsCpsr c _ => some c
  | .mrsSpsr c _ => some c
  | .msrRegCpsr c _ _ => some c
  | .msrRegSpsr c _ _ => some c
  | .msrImmCpsr c _ _ _ => some c
  | .msrImmSpsr c _ _ _ => some c
  | .swp c _ _ _ => some c
  | .swpb c _ _ _ => some c
  | .ldrImmPre c _ _ _ _ _ => some c
  | .ldrRegPre c _ _ _ _ _ _ _ => some c
  | .ldrImmPost c _ _ _ _ => some c
  | .ldrRegPost c _ _ _ _ _ _ => some c
  | .ldrtImm c _ _ _ _ => some c
  | .ldrtReg c _ _ _ _ _ _ => some c
  | .strImmPre c _ _ _ _ _ => some c
  | .strRegPre c _ _ _ _ _ _ _ => some c
  | .strImmPost c _ _ _ _ => some c
  | .strRegPost c _ _ _ _ _ _ => some c
  | .strtImm c _ _ _ _ => some c
  | .strtReg c _ _ _ _ _ _ => some c
  | .ldrbImmPre c _ _ _ _ _ => some c
  | .ldrbRegPre c _ _ _ _ _ _ _ => some c
  | .ldrbImmPost c _ _ _ _ => some c
  | .ldrbRegPost c _ _ _ _ _ _ => some c
  | .ldrbtImm c _ _ _ _ => some c
  | .ldrbtReg c _ _ _ _ _ _ => some c
  | .strbImmPre c _ _ _ _ _ => some c
  | .strbRegPre c _ _ _ _ _ _ _ => some c
  | .strbImmPost c _ _ _ _ => some c
  | .strbRegPost c _ _ _ _ _ _ => some c
  | .strbtImm c _ _ _ _ => some c
  | .strbtReg c _ _ _ _ _ _ => some c
  | .strhImm c _ _ _ _ _ _ _ => some c
  | .strhReg c _ _ _ _ _ _ => some c
  | .ldrhImm c _ _ _ _ _ _ _ => some c
  | .ldrhReg c _ _ _ _ _ _ => some c
  | .ldrsbImm c _ _ _ _ _ _ _ => some c
  | .ldrsbReg c _ _ _ _ _ _ => some c
  | .ldrshImm c _ _ _ _ _ _ _ => some c
  | .ldrshReg c _ _ _ _ _ _ => some c
  | .stmia c _ _ _ => some c
  | .stmib c _ _ _ => some c
  | .stmda c _ _ _ => some c
  | .stmdb c _ _ _ => some c
  | .ldmia c _ _ _ => some c
  | .ldmib c _ _ _ => some c
  | .ldmda c _ _ _ => some c
  | .ldmdb c _ _ _ => some c
  | .stmiaUsr c _ _ _ => some c
  | .stmibUsr c _ _ _ => some c
  | .stmdaUsr c _ _ _ => some c
  | .stmdbUsr c _ _ _ => some c
  | .ldmiaRst c _ _ _ => some c
  | .ldmibRst c _ _ _ => some c
  | .ldmdaRst c _ _ _ => some c
  | .ldmdbRst c _ _ _ => some c
  | .swi c _ => some c
  | .lslImmT _ _ _ => none
  | .lsrImmT _ _ _ => none
  | .asrImmT _ _ _ => none
  | .addRegT _ _ _ => none
  | .subRegT _ _ _ => none
  | .addImm3T _ _ _ => none
  | .subImm3T _ _ _ => none
  | .movImmT _ _ => none
  | .cmpImmT _ _ => none
  | .addImm8T _ _ => none
  | .subImm8T _ _ => none
  | .andT _ _ => none
  | .eorT _ _ => none
  | .lslRegT _ _ => none
  | .lsrRegT _ _ => none
  | .asrRegT _ _ => none
  | .adcT _ _ => none
  | .sbcT _ _ => none
  | .rorT _ _ => none
  | .tstT _ _ => none
  | .negT _ _ => none
  | .cmpRegT _ _ => none
  | .cmnT _ _ => none
  | .orrT _ _ => none
  | .mulT _ _ => none
  | .bicT _ _ => none
  | .mvnT _ _ => none
  | .addHiT _ _ _ _ => none
  | .cmpHiT _ _ _ _ => none
  | .movHiT _ _ _ _ => none
  | .bxT _ _ => none
  | .bxH1T _ _ => none
  | .ldrPcT _ _ => none
  | .strRegT _ _ _ => none
  | .strbRegT _ _ _ => none
  | .ldrRegT _ _ _ => none
  | .ldrbRegT _ _ _ => none
  | .strhRegT _ _ _ => none
  | .ldsbRegT _ _ _ => none
  | .ldrhRegT _ _ _ => none
  | .ldshRegT _ _ _ => none
  | .strImmT _ _ _ => none
  | .ldrImmT _ _ _ => none
  | .strbImmT _ _ _ => none
  | .ldrbImmT _ _ _ => none
  | .strhImmT _ _ _ => none
  | .ldrhImmT _ _ _ => none
  | .strSpT _ _ => none
  | .ldrSpT _ _ => none
  | .addPcT _ _ => none
  | .addSpT _ _ => none
  | .addSpimmT _ => none
  | .subSpimmT _ => none
  | .pushT _ _ => none
  | .popT _ _ => none
  | .stmiaT _ _ => none
  | .ldmiaT _ _ => none
  | .beqT _ => none
  | .bneT _ => none
  | .bcsT _ => none
  | .bccT _ => none
  | .bmiT _ => none
  | .bplT _ => none
  | .bvsT _ => none
  | .bvcT _ => none
  | .bhiT _ => none
  | .blsT _ => none
  | .bgeT _ => none
  | .bltT _ => none
  | .bgtT _ => none
  | .bleT _ => none
  | .swiT _ => none
  | .bT _ => none
  | .blHiT _ => none
  | .blLoT _ => none

/-! ### Groups of constructors of one shape -/

/-- The second operand of a data-processing instruction (R108, R109). -/
inductive Operand2 where
  | imm (rot : BitVec 4) (imm8 : BitVec 8)
  | rsi (shiftImm : BitVec 5) (st : ShiftType) (rm : Reg)
  | rsr (rs : Reg) (st : ShiftType) (rm : Reg)
deriving DecidableEq, Repr

/-- The twelve data-processing operations that write Rd (R192). -/
inductive DpOp where
  | and | eor | sub | rsb | add | adc | sbc | rsc | orr | mov | bic | mvn
deriving DecidableEq, Repr

/-- The four data-processing operations that write only flags (R193). -/
inductive CmpOp where
  | tst | teq | cmp | cmn
deriving DecidableEq, Repr

/-- The 36 data-processing instructions that write Rd. MOV and MVN have no Rn operand: `rn` is their ignored field
(30_encoding.md R107), which only the register-shift form keeps. -/
def Instr.dp (op : DpOp) (c : Cond) (setf : Bool) (rn rd : Reg) (o : Operand2) : Instr :=
  match op, o with
  | .and, .imm rot imm8 => .andImm c setf rn rd rot imm8
  | .and, .rsi si st rm => .andRsi c setf rn rd si st rm
  | .and, .rsr rs st rm => .andRsr c setf rn rd rs st rm
  | .eor, .imm rot imm8 => .eorImm c setf rn rd rot imm8
  | .eor, .rsi si st rm => .eorRsi c setf rn rd si st rm
  | .eor, .rsr rs st rm => .eorRsr c setf rn rd rs st rm
  | .sub, .imm rot imm8 => .subImm c setf rn rd rot imm8
  | .sub, .rsi si st rm => .subRsi c setf rn rd si st rm
  | .sub, .rsr rs st rm => .subRsr c setf rn rd rs st rm
  | .rsb, .imm rot imm8 => .rsbImm c setf rn rd rot imm8
  | .rsb, .rsi si st rm => .rsbRsi c setf rn rd si st rm
  | .rsb, .rsr rs st rm => .rsbRsr c setf rn rd rs st rm
  | .add, .imm rot imm8 => .addImm c setf rn rd rot imm8
  | .add, .rsi si st rm => .addRsi c setf rn rd si st rm
  | .add, .rsr rs st rm => .addRsr c setf rn rd rs st rm
  | .adc, .imm rot imm8 => .adcImm c setf rn rd rot imm8
  | .adc, .rsi si st rm => .adcRsi c setf rn rd si st rm
  | .adc, .rsr rs st rm => .adcRsr c setf rn rd rs st rm
  | .sbc, .imm rot imm8 => .sbcImm c setf rn rd rot imm8
  | .sbc, .rsi si st rm => .sbcRsi c setf rn rd si st rm
  | .sbc, .rsr rs st rm => .sbcRsr c setf rn rd rs st rm
  | .rsc, .imm rot imm8 => .rscImm c setf rn rd rot imm8
  | .rsc, .rsi si st rm => .rscRsi c setf rn rd si st rm
  | .rsc, .rsr rs st rm => .rscRsr c setf rn rd rs st rm
  | .orr, .imm rot imm8 => .orrImm c setf rn rd rot imm8
  | .orr, .rsi si st rm => .orrRsi c setf rn rd si st rm
  | .orr, .rsr rs st rm => .orrRsr c setf rn rd rs st rm
  | .mov, .imm rot imm8 => .movImm c setf rd rot imm8
  | .mov, .rsi si st rm => .movRsi c setf rd si st rm
  | .mov, .rsr rs st rm => .movRsr c setf rn rd rs st rm
  | .bic, .imm rot imm8 => .bicImm c setf rn rd rot imm8
  | .bic, .rsi si st rm => .bicRsi c setf rn rd si st rm
  | .bic, .rsr rs st rm => .bicRsr c setf rn rd rs st rm
  | .mvn, .imm rot imm8 => .mvnImm c setf rd rot imm8
  | .mvn, .rsi si st rm => .mvnRsi c setf rd si st rm
  | .mvn, .rsr rs st rm => .mvnRsr c setf rn rd rs st rm

/-- The 12 compare instructions. `rd` is their ignored field, which only the register-shift form keeps. -/
def Instr.dpCmp (op : CmpOp) (c : Cond) (rn rd : Reg) (o : Operand2) : Instr :=
  match op, o with
  | .tst, .imm rot imm8 => .tstImm c rn rot imm8
  | .tst, .rsi si st rm => .tstRsi c rn si st rm
  | .tst, .rsr rs st rm => .tstRsr c rn rd rs st rm
  | .teq, .imm rot imm8 => .teqImm c rn rot imm8
  | .teq, .rsi si st rm => .teqRsi c rn si st rm
  | .teq, .rsr rs st rm => .teqRsr c rn rd rs st rm
  | .cmp, .imm rot imm8 => .cmpImm c rn rot imm8
  | .cmp, .rsi si st rm => .cmpRsi c rn si st rm
  | .cmp, .rsr rs st rm => .cmpRsr c rn rd rs st rm
  | .cmn, .imm rot imm8 => .cmnImm c rn rot imm8
  | .cmn, .rsi si st rm => .cmnRsi c rn si st rm
  | .cmn, .rsr rs st rm => .cmnRsr c rn rd rs st rm

/-- The four long multiplies with an S bit (R111). -/
inductive LongMulOp where
  | umull | umlal | smull | smlal
deriving DecidableEq, Repr

/-- UMULL, UMLAL, SMULL, SMLAL. -/
def Instr.longMul (op : LongMulOp) (c : Cond) (setf : Bool) (rdHi rdLo rs rm : Reg) : Instr :=
  match op with
  | .umull => .umull c setf rdHi rdLo rs rm
  | .umlal => .umlal c setf rdHi rdLo rs rm
  | .smull => .smull c setf rdHi rdLo rs rm
  | .smlal => .smlal c setf rdHi rdLo rs rm

/-- How a single transfer indexes: pre-indexed with the W bit, post-indexed, or post-indexed in a T form (R117). -/
inductive SdtIndex where
  | pre (w : Bool) | post | t
deriving DecidableEq, Repr

/-- The offset of a single transfer (R117). -/
inductive SdtOffset where
  | imm (imm12 : BitVec 12)
  | reg (shiftImm : BitVec 5) (st : ShiftType) (rm : Reg)
deriving DecidableEq, Repr

/-- The six word loads: LDR and LDRT. -/
def Instr.ldr (x : SdtIndex) (c : Cond) (u : Bool) (rn rd : Reg) (o : SdtOffset) : Instr :=
  match x, o with
  | .pre w, .imm n => .ldrImmPre c u w rn rd n
  | .pre w, .reg si st rm => .ldrRegPre c u w rn rd si st rm
  | .post, .imm n => .ldrImmPost c u rn rd n
  | .post, .reg si st rm => .ldrRegPost c u rn rd si st rm
  | .t, .imm n => .ldrtImm c u rn rd n
  | .t, .reg si st rm => .ldrtReg c u rn rd si st rm

/-- The six word stores: STR and STRT. -/
def Instr.str (x : SdtIndex) (c : Cond) (u : Bool) (rn rd : Reg) (o : SdtOffset) : Instr :=
  match x, o with
  | .pre w, .imm n => .strImmPre c u w rn rd n
  | .pre w, .reg si st rm => .strRegPre c u w rn rd si st rm
  | .post, .imm n => .strImmPost c u rn rd n
  | .post, .reg si st rm => .strRegPost c u rn rd si st rm
  | .t, .imm n => .strtImm c u rn rd n
  | .t, .reg si st rm => .strtReg c u rn rd si st rm

/-- The six byte loads: LDRB and LDRBT. -/
def Instr.ldrb (x : SdtIndex) (c : Cond) (u : Bool) (rn rd : Reg) (o : SdtOffset) : Instr :=
  match x, o with
  | .pre w, .imm n => .ldrbImmPre c u w rn rd n
  | .pre w, .reg si st rm => .ldrbRegPre c u w rn rd si st rm
  | .post, .imm n => .ldrbImmPost c u rn rd n
  | .post, .reg si st rm => .ldrbRegPost c u rn rd si st rm
  | .t, .imm n => .ldrbtImm c u rn rd n
  | .t, .reg si st rm => .ldrbtReg c u rn rd si st rm

/-- The six byte stores: STRB and STRBT. -/
def Instr.strb (x : SdtIndex) (c : Cond) (u : Bool) (rn rd : Reg) (o : SdtOffset) : Instr :=
  match x, o with
  | .pre w, .imm n => .strbImmPre c u w rn rd n
  | .pre w, .reg si st rm => .strbRegPre c u w rn rd si st rm
  | .post, .imm n => .strbImmPost c u rn rd n
  | .post, .reg si st rm => .strbRegPost c u rn rd si st rm
  | .t, .imm n => .strbtImm c u rn rd n
  | .t, .reg si st rm => .strbtReg c u rn rd si st rm

/-- The offset of a halfword transfer (R118). -/
inductive HalfOffset where
  | imm (immHi immLo : BitVec 4)
  | reg (rm : Reg)
deriving DecidableEq, Repr

/-- The three loads of the halfword class (R118). -/
inductive HalfLoad where
  | ldrh | ldrsb | ldrsh
deriving DecidableEq, Repr

/-- LDRH, LDRSB, LDRSH, by immediate or register. -/
def Instr.halfLoad (k : HalfLoad) (c : Cond) (p u w : Bool) (rn rd : Reg) (o : HalfOffset) : Instr :=
  match k, o with
  | .ldrh, .imm hi lo => .ldrhImm c p u w rn rd hi lo
  | .ldrh, .reg rm => .ldrhReg c p u w rn rd rm
  | .ldrsb, .imm hi lo => .ldrsbImm c p u w rn rd hi lo
  | .ldrsb, .reg rm => .ldrsbReg c p u w rn rd rm
  | .ldrsh, .imm hi lo => .ldrshImm c p u w rn rd hi lo
  | .ldrsh, .reg rm => .ldrshReg c p u w rn rd rm

/-- STRH, by immediate or register. -/
def Instr.strh (c : Cond) (p u w : Bool) (rn rd : Reg) (o : HalfOffset) : Instr :=
  match o with
  | .imm hi lo => .strhImm c p u w rn rd hi lo
  | .reg rm => .strhReg c p u w rn rd rm

/-- The four addressing modes of a block transfer (R290). -/
inductive BlockMode where
  | ia | ib | da | db
deriving DecidableEq, Repr

/-- STMIA, STMIB, STMDA, STMDB. -/
def Instr.stm (k : BlockMode) (c : Cond) (w : Bool) (rn : Reg) (list : BitVec 16) : Instr :=
  match k with
  | .ia => .stmia c w rn list
  | .ib => .stmib c w rn list
  | .da => .stmda c w rn list
  | .db => .stmdb c w rn list

/-- LDMIA, LDMIB, LDMDA, LDMDB. -/
def Instr.ldm (k : BlockMode) (c : Cond) (w : Bool) (rn : Reg) (list : BitVec 16) : Instr :=
  match k with
  | .ia => .ldmia c w rn list
  | .ib => .ldmib c w rn list
  | .da => .ldmda c w rn list
  | .db => .ldmdb c w rn list

/-- STM with the S bit (R293). -/
def Instr.stmUsr (k : BlockMode) (c : Cond) (w : Bool) (rn : Reg) (list : BitVec 16) : Instr :=
  match k with
  | .ia => .stmiaUsr c w rn list
  | .ib => .stmibUsr c w rn list
  | .da => .stmdaUsr c w rn list
  | .db => .stmdbUsr c w rn list

/-- LDM with the S bit (R294). -/
def Instr.ldmRst (k : BlockMode) (c : Cond) (w : Bool) (rn : Reg) (list : BitVec 16) : Instr :=
  match k with
  | .ia => .ldmiaRst c w rn list
  | .ib => .ldmibRst c w rn list
  | .da => .ldmdaRst c w rn list
  | .db => .ldmdbRst c w rn list

/-- The three shifts of Thumb format 1 (R321 to R323). -/
inductive ShiftImmOpT where
  | lsl | lsr | asr
deriving DecidableEq, Repr

/-- Thumb format 1. -/
def Instr.shiftImmT (op : ShiftImmOpT) (offset5 : BitVec 5) (rs rd : LowReg) : Instr :=
  match op with
  | .lsl => .lslImmT offset5 rs rd
  | .lsr => .lsrImmT offset5 rs rd
  | .asr => .asrImmT offset5 rs rd

/-- The sixteen operations of Thumb format 4 (R332 to R347). -/
inductive AluOpT where
  | and | eor | lsl | lsr | asr | adc | sbc | ror | tst | neg | cmp | cmn | orr | mul | bic | mvn
deriving DecidableEq, Repr

/-- Thumb format 4. -/
def Instr.aluT (op : AluOpT) (rs rd : LowReg) : Instr :=
  match op with
  | .and => .andT rs rd
  | .eor => .eorT rs rd
  | .lsl => .lslRegT rs rd
  | .lsr => .lsrRegT rs rd
  | .asr => .asrRegT rs rd
  | .adc => .adcT rs rd
  | .sbc => .sbcT rs rd
  | .ror => .rorT rs rd
  | .tst => .tstT rs rd
  | .neg => .negT rs rd
  | .cmp => .cmpRegT rs rd
  | .cmn => .cmnT rs rd
  | .orr => .orrT rs rd
  | .mul => .mulT rs rd
  | .bic => .bicT rs rd
  | .mvn => .mvnT rs rd

/-- The Thumb loads of formats 6 to 11: where the address comes from, with the width and the extension (R360 to R376). -/
inductive LoadT where
  | pc (word8 : BitVec 8)
  | sp (word8 : BitVec 8)
  | wordReg (ro rb : LowReg) | byteReg (ro rb : LowReg) | halfReg (ro rb : LowReg)
  | signedByteReg (ro rb : LowReg) | signedHalfReg (ro rb : LowReg)
  | wordImm (offset5 : BitVec 5) (rb : LowReg)
  | byteImm (offset5 : BitVec 5) (rb : LowReg)
  | halfImm (offset5 : BitVec 5) (rb : LowReg)
deriving DecidableEq, Repr

/-- The ten Thumb loads of one register. -/
def Instr.loadT (k : LoadT) (rd : LowReg) : Instr :=
  match k with
  | .pc n => .ldrPcT rd n
  | .sp n => .ldrSpT rd n
  | .wordReg ro rb => .ldrRegT ro rb rd
  | .byteReg ro rb => .ldrbRegT ro rb rd
  | .halfReg ro rb => .ldrhRegT ro rb rd
  | .signedByteReg ro rb => .ldsbRegT ro rb rd
  | .signedHalfReg ro rb => .ldshRegT ro rb rd
  | .wordImm n rb => .ldrImmT n rb rd
  | .byteImm n rb => .ldrbImmT n rb rd
  | .halfImm n rb => .ldrhImmT n rb rd

/-- The Thumb stores of formats 7 to 11 (R361 to R375). -/
inductive StoreT where
  | sp (word8 : BitVec 8)
  | wordReg (ro rb : LowReg) | byteReg (ro rb : LowReg) | halfReg (ro rb : LowReg)
  | wordImm (offset5 : BitVec 5) (rb : LowReg)
  | byteImm (offset5 : BitVec 5) (rb : LowReg)
  | halfImm (offset5 : BitVec 5) (rb : LowReg)
deriving DecidableEq, Repr

/-- The seven Thumb stores of one register. -/
def Instr.storeT (k : StoreT) (rd : LowReg) : Instr :=
  match k with
  | .sp n => .strSpT rd n
  | .wordReg ro rb => .strRegT ro rb rd
  | .byteReg ro rb => .strbRegT ro rb rd
  | .halfReg ro rb => .strhRegT ro rb rd
  | .wordImm n rb => .strImmT n rb rd
  | .byteImm n rb => .strbImmT n rb rd
  | .halfImm n rb => .strhImmT n rb rd

/-- The fourteen conditional branches of Thumb format 16: none for AL and NV (R385). -/
def Instr.branchT (c : Cond) (soffset8 : BitVec 8) : Option Instr :=
  match c with
  | .eq => some (.beqT soffset8)
  | .ne => some (.bneT soffset8)
  | .cs => some (.bcsT soffset8)
  | .cc => some (.bccT soffset8)
  | .mi => some (.bmiT soffset8)
  | .pl => some (.bplT soffset8)
  | .vs => some (.bvsT soffset8)
  | .vc => some (.bvcT soffset8)
  | .hi => some (.bhiT soffset8)
  | .ls => some (.blsT soffset8)
  | .ge => some (.bgeT soffset8)
  | .lt => some (.bltT soffset8)
  | .gt => some (.bgtT soffset8)
  | .le => some (.bleT soffset8)
  | .al => none
  | .nv => none

end Sys2Proof
end

