-- ==== Sys2Proof/WellFormed.lean ====
section
/-! DEFINITION. WellFormed.lean: which instructions are admitted forms (30_encoding.md R132). A form is ill-formed when its
fields alone make it an UNPREDICTABLE form of 60_exceptions.md R405 or a refused encoding (R135): whatever the state, such a
form never completes once its condition has passed. Every field value is otherwise admitted: the types bound the fields. -/
namespace Sys2Proof

/-- The field does not name R15. -/
def notPc (r : Reg) : Bool := r != 15

/-- R15 in no field, RdHi and RdLo distinct (tag `MulLongRegs`). -/
def longRegsOk (rdHi rdLo rs rm : Reg) : Bool :=
  notPc rdHi && notPc rdLo && notPc rs && notPc rm && rdHi != rdLo

/-- Halfword transfers: not P = 0 with W = 1, and with writeback Rn is neither R15 nor Rd (R266). -/
def halfIndexOk (p w : Bool) (rn rd : Reg) : Bool :=
  !(!p && w) && (!(!p || w) || (notPc rn && rn != rd))

/-- The base is not in the list, or it is the lowest register there (tag `StmWritebackBase`). -/
def storeBaseOk {n : Nat} (list : BitVec n) (base : Nat) : Bool :=
  !list.getLsbD base || list.setWidth base == 0

/-- The admitted forms (R132). -/
def Instr.wellFormed : Instr → Bool
  | .andImm _ _ _ _ _ _ => true
  | .andRsi _ _ _ _ _ _ _ => true
  | .andRsr _ _ rn rd rs _ rm => notPc rn && notPc rd && notPc rs && notPc rm
  | .eorImm _ _ _ _ _ _ => true
  | .eorRsi _ _ _ _ _ _ _ => true
  | .eorRsr _ _ rn rd rs _ rm => notPc rn && notPc rd && notPc rs && notPc rm
  | .subImm _ _ _ _ _ _ => true
  | .subRsi _ _ _ _ _ _ _ => true
  | .subRsr _ _ rn rd rs _ rm => notPc rn && notPc rd && notPc rs && notPc rm
  | .rsbImm _ _ _ _ _ _ => true
  | .rsbRsi _ _ _ _ _ _ _ => true
  | .rsbRsr _ _ rn rd rs _ rm => notPc rn && notPc rd && notPc rs && notPc rm
  | .addImm _ _ _ _ _ _ => true
  | .addRsi _ _ _ _ _ _ _ => true
  | .addRsr _ _ rn rd rs _ rm => notPc rn && notPc rd && notPc rs && notPc rm
  | .adcImm _ _ _ _ _ _ => true
  | .adcRsi _ _ _ _ _ _ _ => true
  | .adcRsr _ _ rn rd rs _ rm => notPc rn && notPc rd && notPc rs && notPc rm
  | .sbcImm _ _ _ _ _ _ => true
  | .sbcRsi _ _ _ _ _ _ _ => true
  | .sbcRsr _ _ rn rd rs _ rm => notPc rn && notPc rd && notPc rs && notPc rm
  | .rscImm _ _ _ _ _ _ => true
  | .rscRsi _ _ _ _ _ _ _ => true
  | .rscRsr _ _ rn rd rs _ rm => notPc rn && notPc rd && notPc rs && notPc rm
  | .tstImm _ _ _ _ => true
  | .tstRsi _ _ _ _ _ => true
  | .tstRsr _ rn _ rs _ rm => notPc rn && notPc rs && notPc rm
  | .teqImm _ _ _ _ => true
  | .teqRsi _ _ _ _ _ => true
  | .teqRsr _ rn _ rs _ rm => notPc rn && notPc rs && notPc rm
  | .cmpImm _ _ _ _ => true
  | .cmpRsi _ _ _ _ _ => true
  | .cmpRsr _ rn _ rs _ rm => notPc rn && notPc rs && notPc rm
  | .cmnImm _ _ _ _ => true
  | .cmnRsi _ _ _ _ _ => true
  | .cmnRsr _ rn _ rs _ rm => notPc rn && notPc rs && notPc rm
  | .orrImm _ _ _ _ _ _ => true
  | .orrRsi _ _ _ _ _ _ _ => true
  | .orrRsr _ _ rn rd rs _ rm => notPc rn && notPc rd && notPc rs && notPc rm
  | .movImm _ _ _ _ _ => true
  | .movRsi _ _ _ _ _ _ => true
  | .movRsr _ _ _ rd rs _ rm => notPc rd && notPc rs && notPc rm
  | .bicImm _ _ _ _ _ _ => true
  | .bicRsi _ _ _ _ _ _ _ => true
  | .bicRsr _ _ rn rd rs _ rm => notPc rn && notPc rd && notPc rs && notPc rm
  | .mvnImm _ _ _ _ _ => true
  | .mvnRsi _ _ _ _ _ _ => true
  | .mvnRsr _ _ _ rd rs _ rm => notPc rd && notPc rs && notPc rm
  | .b _ _ => true
  | .bl _ _ => true
  | .bx _ _ => true
  | .blxReg _ rm => notPc rm
  | .mul _ _ rd rs rm => notPc rd && notPc rs && notPc rm && rd != rm
  | .mla _ _ rd rn rs rm => notPc rd && notPc rn && notPc rs && notPc rm && rd != rm
  | .umull _ _ rdHi rdLo rs rm => longRegsOk rdHi rdLo rs rm && rdHi != rm && rdLo != rm
  | .umlal _ _ rdHi rdLo rs rm => longRegsOk rdHi rdLo rs rm && rdHi != rm && rdLo != rm
  | .smull _ _ rdHi rdLo rs rm => longRegsOk rdHi rdLo rs rm && rdHi != rm && rdLo != rm
  | .smlal _ _ rdHi rdLo rs rm => longRegsOk rdHi rdLo rs rm && rdHi != rm && rdLo != rm
  | .umaal _ rdHi rdLo rs rm => longRegsOk rdHi rdLo rs rm
  | .smlaxy _ _ _ _ _ _ _ => false
  | .smlawy _ rd rn rs _ rm => notPc rd && notPc rn && notPc rs && notPc rm
  | .smulwy _ _ _ _ _ _ => false
  | .smlalxy _ rdHi rdLo rs _ _ rm => longRegsOk rdHi rdLo rs rm
  | .smulxy _ rd rs _ _ rm => notPc rd && notPc rs && notPc rm
  | .mrsCpsr _ rd => notPc rd
  | .mrsSpsr _ rd => notPc rd
  | .msrRegCpsr _ _ rm => notPc rm
  | .msrRegSpsr _ _ rm => notPc rm
  | .msrImmCpsr _ _ _ _ => true
  | .msrImmSpsr _ _ _ _ => true
  | .swp _ rn rd rm => notPc rd && notPc rm && notPc rn && rn != rd && rn != rm
  | .swpb _ rn rd rm => notPc rd && notPc rm && notPc rn && rn != rd && rn != rm
  | .ldrImmPre _ _ w rn rd _ => (!w || (notPc rn && rn != rd))
  | .ldrRegPre _ _ w rn rd _ _ rm => notPc rm && (!w || (notPc rn && rn != rd))
  | .ldrImmPost _ _ rn rd _ => notPc rn && rn != rd
  | .ldrRegPost _ _ rn rd _ _ rm => notPc rm && notPc rn && rn != rd
  | .ldrtImm _ _ rn rd _ => notPc rn && rn != rd
  | .ldrtReg _ _ rn rd _ _ rm => notPc rm && notPc rn && rn != rd
  | .strImmPre _ _ w rn rd _ => (!w || (notPc rn && rn != rd))
  | .strRegPre _ _ w rn rd _ _ rm => notPc rm && (!w || (notPc rn && rn != rd))
  | .strImmPost _ _ rn rd _ => notPc rn && rn != rd
  | .strRegPost _ _ rn rd _ _ rm => notPc rm && notPc rn && rn != rd
  | .strtImm _ _ rn rd _ => notPc rn && rn != rd
  | .strtReg _ _ rn rd _ _ rm => notPc rm && notPc rn && rn != rd
  | .ldrbImmPre _ _ w rn rd _ => notPc rd && (!w || (notPc rn && rn != rd))
  | .ldrbRegPre _ _ w rn rd _ _ rm => notPc rd && notPc rm && (!w || (notPc rn && rn != rd))
  | .ldrbImmPost _ _ rn rd _ => notPc rd && notPc rn && rn != rd
  | .ldrbRegPost _ _ rn rd _ _ rm => notPc rd && notPc rm && notPc rn && rn != rd
  | .ldrbtImm _ _ rn rd _ => notPc rd && notPc rn && rn != rd
  | .ldrbtReg _ _ rn rd _ _ rm => notPc rd && notPc rm && notPc rn && rn != rd
  | .strbImmPre _ _ w rn rd _ => notPc rd && (!w || (notPc rn && rn != rd))
  | .strbRegPre _ _ w rn rd _ _ rm => notPc rd && notPc rm && (!w || (notPc rn && rn != rd))
  | .strbImmPost _ _ rn rd _ => notPc rd && notPc rn && rn != rd
  | .strbRegPost _ _ rn rd _ _ rm => notPc rd && notPc rm && notPc rn && rn != rd
  | .strbtImm _ _ rn rd _ => notPc rd && notPc rn && rn != rd
  | .strbtReg _ _ rn rd _ _ rm => notPc rd && notPc rm && notPc rn && rn != rd
  | .strhImm _ p _ w rn rd _ _ => notPc rd && halfIndexOk p w rn rd
  | .strhReg _ p _ w rn rd rm => notPc rd && notPc rm && halfIndexOk p w rn rd
  | .ldrhImm _ p _ w rn rd _ _ => notPc rd && halfIndexOk p w rn rd
  | .ldrhReg _ p _ w rn rd rm => notPc rd && notPc rm && halfIndexOk p w rn rd
  | .ldrsbImm _ p _ w rn rd _ _ => notPc rd && halfIndexOk p w rn rd
  | .ldrsbReg _ p _ w rn rd rm => notPc rd && notPc rm && halfIndexOk p w rn rd
  | .ldrshImm _ p _ w rn rd _ _ => notPc rd && halfIndexOk p w rn rd
  | .ldrshReg _ p _ w rn rd rm => notPc rd && notPc rm && halfIndexOk p w rn rd
  | .stmia _ w rn list => list != 0 && notPc rn && (!w || storeBaseOk list rn.val)
  | .stmib _ w rn list => list != 0 && notPc rn && (!w || storeBaseOk list rn.val)
  | .stmda _ w rn list => list != 0 && notPc rn && (!w || storeBaseOk list rn.val)
  | .stmdb _ w rn list => list != 0 && notPc rn && (!w || storeBaseOk list rn.val)
  | .ldmia _ w rn list => list != 0 && notPc rn && (!w || !list.getLsbD rn.val)
  | .ldmib _ w rn list => list != 0 && notPc rn && (!w || !list.getLsbD rn.val)
  | .ldmda _ w rn list => list != 0 && notPc rn && (!w || !list.getLsbD rn.val)
  | .ldmdb _ w rn list => list != 0 && notPc rn && (!w || !list.getLsbD rn.val)
  | .stmiaUsr _ w rn list => list != 0 && notPc rn && !w
  | .stmibUsr _ w rn list => list != 0 && notPc rn && !w
  | .stmdaUsr _ w rn list => list != 0 && notPc rn && !w
  | .stmdbUsr _ w rn list => list != 0 && notPc rn && !w
  | .ldmiaRst _ w rn list => list != 0 && notPc rn && (!w || !list.getLsbD rn.val)
  | .ldmibRst _ w rn list => list != 0 && notPc rn && (!w || !list.getLsbD rn.val)
  | .ldmdaRst _ w rn list => list != 0 && notPc rn && (!w || !list.getLsbD rn.val)
  | .ldmdbRst _ w rn list => list != 0 && notPc rn && (!w || !list.getLsbD rn.val)
  | .swi _ _ => true
  | .lslImmT _ _ _ => true
  | .lsrImmT _ _ _ => true
  | .asrImmT _ _ _ => true
  | .addRegT _ _ _ => true
  | .subRegT _ _ _ => true
  | .addImm3T _ _ _ => true
  | .subImm3T _ _ _ => true
  | .movImmT _ _ => true
  | .cmpImmT _ _ => true
  | .addImm8T _ _ => true
  | .subImm8T _ _ => true
  | .andT _ _ => true
  | .eorT _ _ => true
  | .lslRegT _ _ => true
  | .lsrRegT _ _ => true
  | .asrRegT _ _ => true
  | .adcT _ _ => true
  | .sbcT _ _ => true
  | .rorT _ _ => true
  | .tstT _ _ => true
  | .negT _ _ => true
  | .cmpRegT _ _ => true
  | .cmnT _ _ => true
  | .orrT _ _ => true
  | .mulT rs rd => rd != rs
  | .bicT _ _ => true
  | .mvnT _ _ => true
  | .addHiT h1 h2 _ _ => (h1 || h2)
  | .cmpHiT h1 h2 _ _ => (h1 || h2)
  | .movHiT h1 h2 _ _ => (h1 || h2)
  | .bxT _ _ => true
  | .bxH1T _ _ => false
  | .ldrPcT _ _ => true
  | .strRegT _ _ _ => true
  | .strbRegT _ _ _ => true
  | .ldrRegT _ _ _ => true
  | .ldrbRegT _ _ _ => true
  | .strhRegT _ _ _ => true
  | .ldsbRegT _ _ _ => true
  | .ldrhRegT _ _ _ => true
  | .ldshRegT _ _ _ => true
  | .strImmT _ _ _ => true
  | .ldrImmT _ _ _ => true
  | .strbImmT _ _ _ => true
  | .ldrbImmT _ _ _ => true
  | .strhImmT _ _ _ => true
  | .ldrhImmT _ _ _ => true
  | .strSpT _ _ => true
  | .ldrSpT _ _ => true
  | .addPcT _ _ => true
  | .addSpT _ _ => true
  | .addSpimmT _ => true
  | .subSpimmT _ => true
  | .pushT r list => (list != 0 || r)
  | .popT r list => (list != 0 || r)
  | .stmiaT rb list => list != 0 && storeBaseOk list rb.val
  | .ldmiaT rb list => list != 0 && !list.getLsbD rb.val
  | .beqT _ => true
  | .bneT _ => true
  | .bcsT _ => true
  | .bccT _ => true
  | .bmiT _ => true
  | .bplT _ => true
  | .bvsT _ => true
  | .bvcT _ => true
  | .bhiT _ => true
  | .blsT _ => true
  | .bgeT _ => true
  | .bltT _ => true
  | .bgtT _ => true
  | .bleT _ => true
  | .swiT _ => true
  | .bT _ => true
  | .blHiT _ => true
  | .blLoT _ => true

end Sys2Proof
end

