-- ==== Sys2Proof/Decode.lean ====
section
/-! DEFINITION. Decode.lean: bit fields and byte order, the opcode table (30_encoding.md R133), the decoder, total on any bytes and
rejecting by name, and the encoder written from the same table. -/
namespace Sys2Proof

/-! ### Bit fields (00_scope.md R11) -/

/-- The field `f` placed with its bit 0 at bit `lo` of a word of width `w`. -/
def put {n : Nat} (w lo : Nat) (f : BitVec n) : BitVec w := f.setWidth w <<< lo

/-- The field of `n` bits whose bit 0 is bit `lo`: `v[lo+n-1 : lo]`. -/
def get {w : Nat} (v : BitVec w) (lo n : Nat) : BitVec n := v.extractLsb' lo n

/-- A register field's bits. -/
def regBits (r : Reg) : BitVec 4 := BitVec.ofFin r
def regOf (b : BitVec 4) : Reg := b.toFin

/-- A low register field's bits. -/
def lowBits (r : LowReg) : BitVec 3 := BitVec.ofFin r
def lowOf (b : BitVec 3) : LowReg := b.toFin

/-- A one-bit field. -/
def flagBits (b : Bool) : BitVec 1 := BitVec.ofBool b
def flagOf (b : BitVec 1) : Bool := b == 1#1

/-- The condition codes' numbers (40_core_condition_shifter.md R145). -/
def Cond.bits : Cond → BitVec 4
  | .eq => 0x0#4 | .ne => 0x1#4 | .cs => 0x2#4 | .cc => 0x3#4 | .mi => 0x4#4 | .pl => 0x5#4 | .vs => 0x6#4 | .vc => 0x7#4
  | .hi => 0x8#4 | .ls => 0x9#4 | .ge => 0xA#4 | .lt => 0xB#4 | .gt => 0xC#4 | .le => 0xD#4 | .al => 0xE#4 | .nv => 0xF#4

def Cond.ofBits (b : BitVec 4) : Cond :=
  match b.toNat with
  | 0 => .eq | 1 => .ne | 2 => .cs | 3 => .cc | 4 => .mi | 5 => .pl | 6 => .vs | 7 => .vc
  | 8 => .hi | 9 => .ls | 10 => .ge | 11 => .lt | 12 => .gt | 13 => .le | 14 => .al | _ => .nv

/-- The shift types' numbers (R109). -/
def ShiftType.bits : ShiftType → BitVec 2
  | .lsl => 0#2 | .lsr => 1#2 | .asr => 2#2 | .ror => 3#2

def ShiftType.ofBits (b : BitVec 2) : ShiftType :=
  match b.toNat with
  | 0 => .lsl | 1 => .lsr | 2 => .asr | _ => .ror

/-! ### Byte order (20_memory.md R64) -/

/-- The value of bytes listed from the least significant up. -/
def wordOfBytes : List Byte → Word
  | [] => 0
  | b :: bs => b.setWidth 32 ||| (wordOfBytes bs <<< 8)

/-- The `n` low bytes of a word, from the least significant up. -/
def bytesOfWord : Nat → Word → List Byte
  | 0, _ => []
  | n + 1, v => v.setWidth 8 :: bytesOfWord n (v >>> 8)

/-- The value of bytes listed from the lowest address up, under the byte order `big` = `CPSR.E`. -/
def assemble (big : Bool) (bs : List Byte) : Word :=
  wordOfBytes (if big then bs.reverse else bs)

/-- The `n` bytes of a value from the lowest address up, under the byte order `big` = `CPSR.E`. -/
def disassemble (big : Bool) (n : Nat) (v : Word) : List Byte :=
  if big then (bytesOfWord n v).reverse else bytesOfWord n v

/-! ### The opcode table -/

/-- An instruction as it stands in memory: a word in ARM state, a halfword in Thumb state (R100). -/
inductive Code where
  | arm (word : Word)
  | thumb (half : Half)
deriving DecidableEq, Repr

/-- Why a decoder gives no instruction. -/
inductive Rejected where
  /-- The word is in no class of R102, or in the Undefined class (R106, R122): its execution is `State.undefined` (R310). -/
  | undefinedArm (word : Word)
  /-- The halfword is in no format of R123 (R130). -/
  | undefinedThumb (half : Half)
  /-- There are fewer bytes than an instruction of this state has. -/
  | tooShort
deriving DecidableEq, Repr

/-- One row of opcode_table.json: a word `v` is of this row when `v AND mask = value`. -/
structure Row (w : Nat) where
  mnemonic : String
  mask : BitVec w
  value : BitVec w
  build : BitVec w → Instr

/-- The row's test (R133). -/
def Row.accepts {w : Nat} (r : Row w) (v : BitVec w) : Bool := v &&& r.mask == r.value

/-- Data processing, immediate (R107 to R109, R194 to R209). -/
def dpImmRows : List (Row 32) := [
  ⟨"AND_imm", 0x0FE00000#32, 0x02000000#32, fun x => .andImm (Cond.ofBits (get x 28 4)) (flagOf (get x 20 1)) (regOf (get x 16 4)) (regOf (get x 12 4)) (get x 8 4) (get x 0 8)⟩,
  ⟨"EOR_imm", 0x0FE00000#32, 0x02200000#32, fun x => .eorImm (Cond.ofBits (get x 28 4)) (flagOf (get x 20 1)) (regOf (get x 16 4)) (regOf (get x 12 4)) (get x 8 4) (get x 0 8)⟩,
  ⟨"SUB_imm", 0x0FE00000#32, 0x02400000#32, fun x => .subImm (Cond.ofBits (get x 28 4)) (flagOf (get x 20 1)) (regOf (get x 16 4)) (regOf (get x 12 4)) (get x 8 4) (get x 0 8)⟩,
  ⟨"RSB_imm", 0x0FE00000#32, 0x02600000#32, fun x => .rsbImm (Cond.ofBits (get x 28 4)) (flagOf (get x 20 1)) (regOf (get x 16 4)) (regOf (get x 12 4)) (get x 8 4) (get x 0 8)⟩,
  ⟨"ADD_imm", 0x0FE00000#32, 0x02800000#32, fun x => .addImm (Cond.ofBits (get x 28 4)) (flagOf (get x 20 1)) (regOf (get x 16 4)) (regOf (get x 12 4)) (get x 8 4) (get x 0 8)⟩,
  ⟨"ADC_imm", 0x0FE00000#32, 0x02A00000#32, fun x => .adcImm (Cond.ofBits (get x 28 4)) (flagOf (get x 20 1)) (regOf (get x 16 4)) (regOf (get x 12 4)) (get x 8 4) (get x 0 8)⟩,
  ⟨"SBC_imm", 0x0FE00000#32, 0x02C00000#32, fun x => .sbcImm (Cond.ofBits (get x 28 4)) (flagOf (get x 20 1)) (regOf (get x 16 4)) (regOf (get x 12 4)) (get x 8 4) (get x 0 8)⟩,
  ⟨"RSC_imm", 0x0FE00000#32, 0x02E00000#32, fun x => .rscImm (Cond.ofBits (get x 28 4)) (flagOf (get x 20 1)) (regOf (get x 16 4)) (regOf (get x 12 4)) (get x 8 4) (get x 0 8)⟩,
  ⟨"TST_imm", 0x0FF00000#32, 0x03100000#32, fun x => .tstImm (Cond.ofBits (get x 28 4)) (regOf (get x 16 4)) (get x 8 4) (get x 0 8)⟩,
  ⟨"TEQ_imm", 0x0FF00000#32, 0x03300000#32, fun x => .teqImm (Cond.ofBits (get x 28 4)) (regOf (get x 16 4)) (get x 8 4) (get x 0 8)⟩,
  ⟨"CMP_imm", 0x0FF00000#32, 0x03500000#32, fun x => .cmpImm (Cond.ofBits (get x 28 4)) (regOf (get x 16 4)) (get x 8 4) (get x 0 8)⟩,
  ⟨"CMN_imm", 0x0FF00000#32, 0x03700000#32, fun x => .cmnImm (Cond.ofBits (get x 28 4)) (regOf (get x 16 4)) (get x 8 4) (get x 0 8)⟩,
  ⟨"ORR_imm", 0x0FE00000#32, 0x03800000#32, fun x => .orrImm (Cond.ofBits (get x 28 4)) (flagOf (get x 20 1)) (regOf (get x 16 4)) (regOf (get x 12 4)) (get x 8 4) (get x 0 8)⟩,
  ⟨"MOV_imm", 0x0FE00000#32, 0x03A00000#32, fun x => .movImm (Cond.ofBits (get x 28 4)) (flagOf (get x 20 1)) (regOf (get x 12 4)) (get x 8 4) (get x 0 8)⟩,
  ⟨"BIC_imm", 0x0FE00000#32, 0x03C00000#32, fun x => .bicImm (Cond.ofBits (get x 28 4)) (flagOf (get x 20 1)) (regOf (get x 16 4)) (regOf (get x 12 4)) (get x 8 4) (get x 0 8)⟩,
  ⟨"MVN_imm", 0x0FE00000#32, 0x03E00000#32, fun x => .mvnImm (Cond.ofBits (get x 28 4)) (flagOf (get x 20 1)) (regOf (get x 12 4)) (get x 8 4) (get x 0 8)⟩]

/-- Data processing, register shifted by an immediate (R107 to R109, R194 to R209). -/
def dpRsiRows : List (Row 32) := [
  ⟨"AND_rsi", 0x0FE00010#32, 0x00000000#32, fun x => .andRsi (Cond.ofBits (get x 28 4)) (flagOf (get x 20 1)) (regOf (get x 16 4)) (regOf (get x 12 4)) (get x 7 5) (ShiftType.ofBits (get x 5 2)) (regOf (get x 0 4))⟩,
  ⟨"EOR_rsi", 0x0FE00010#32, 0x00200000#32, fun x => .eorRsi (Cond.ofBits (get x 28 4)) (flagOf (get x 20 1)) (regOf (get x 16 4)) (regOf (get x 12 4)) (get x 7 5) (ShiftType.ofBits (get x 5 2)) (regOf (get x 0 4))⟩,
  ⟨"SUB_rsi", 0x0FE00010#32, 0x00400000#32, fun x => .subRsi (Cond.ofBits (get x 28 4)) (flagOf (get x 20 1)) (regOf (get x 16 4)) (regOf (get x 12 4)) (get x 7 5) (ShiftType.ofBits (get x 5 2)) (regOf (get x 0 4))⟩,
  ⟨"RSB_rsi", 0x0FE00010#32, 0x00600000#32, fun x => .rsbRsi (Cond.ofBits (get x 28 4)) (flagOf (get x 20 1)) (regOf (get x 16 4)) (regOf (get x 12 4)) (get x 7 5) (ShiftType.ofBits (get x 5 2)) (regOf (get x 0 4))⟩,
  ⟨"ADD_rsi", 0x0FE00010#32, 0x00800000#32, fun x => .addRsi (Cond.ofBits (get x 28 4)) (flagOf (get x 20 1)) (regOf (get x 16 4)) (regOf (get x 12 4)) (get x 7 5) (ShiftType.ofBits (get x 5 2)) (regOf (get x 0 4))⟩,
  ⟨"ADC_rsi", 0x0FE00010#32, 0x00A00000#32, fun x => .adcRsi (Cond.ofBits (get x 28 4)) (flagOf (get x 20 1)) (regOf (get x 16 4)) (regOf (get x 12 4)) (get x 7 5) (ShiftType.ofBits (get x 5 2)) (regOf (get x 0 4))⟩,
  ⟨"SBC_rsi", 0x0FE00010#32, 0x00C00000#32, fun x => .sbcRsi (Cond.ofBits (get x 28 4)) (flagOf (get x 20 1)) (regOf (get x 16 4)) (regOf (get x 12 4)) (get x 7 5) (ShiftType.ofBits (get x 5 2)) (regOf (get x 0 4))⟩,
  ⟨"RSC_rsi", 0x0FE00010#32, 0x00E00000#32, fun x => .rscRsi (Cond.ofBits (get x 28 4)) (flagOf (get x 20 1)) (regOf (get x 16 4)) (regOf (get x 12 4)) (get x 7 5) (ShiftType.ofBits (get x 5 2)) (regOf (get x 0 4))⟩,
  ⟨"TST_rsi", 0x0FF00010#32, 0x01100000#32, fun x => .tstRsi (Cond.ofBits (get x 28 4)) (regOf (get x 16 4)) (get x 7 5) (ShiftType.ofBits (get x 5 2)) (regOf (get x 0 4))⟩,
  ⟨"TEQ_rsi", 0x0FF00010#32, 0x01300000#32, fun x => .teqRsi (Cond.ofBits (get x 28 4)) (regOf (get x 16 4)) (get x 7 5) (ShiftType.ofBits (get x 5 2)) (regOf (get x 0 4))⟩,
  ⟨"CMP_rsi", 0x0FF00010#32, 0x01500000#32, fun x => .cmpRsi (Cond.ofBits (get x 28 4)) (regOf (get x 16 4)) (get x 7 5) (ShiftType.ofBits (get x 5 2)) (regOf (get x 0 4))⟩,
  ⟨"CMN_rsi", 0x0FF00010#32, 0x01700000#32, fun x => .cmnRsi (Cond.ofBits (get x 28 4)) (regOf (get x 16 4)) (get x 7 5) (ShiftType.ofBits (get x 5 2)) (regOf (get x 0 4))⟩,
  ⟨"ORR_rsi", 0x0FE00010#32, 0x01800000#32, fun x => .orrRsi (Cond.ofBits (get x 28 4)) (flagOf (get x 20 1)) (regOf (get x 16 4)) (regOf (get x 12 4)) (get x 7 5) (ShiftType.ofBits (get x 5 2)) (regOf (get x 0 4))⟩,
  ⟨"MOV_rsi", 0x0FE00010#32, 0x01A00000#32, fun x => .movRsi (Cond.ofBits (get x 28 4)) (flagOf (get x 20 1)) (regOf (get x 12 4)) (get x 7 5) (ShiftType.ofBits (get x 5 2)) (regOf (get x 0 4))⟩,
  ⟨"BIC_rsi", 0x0FE00010#32, 0x01C00000#32, fun x => .bicRsi (Cond.ofBits (get x 28 4)) (flagOf (get x 20 1)) (regOf (get x 16 4)) (regOf (get x 12 4)) (get x 7 5) (ShiftType.ofBits (get x 5 2)) (regOf (get x 0 4))⟩,
  ⟨"MVN_rsi", 0x0FE00010#32, 0x01E00000#32, fun x => .mvnRsi (Cond.ofBits (get x 28 4)) (flagOf (get x 20 1)) (regOf (get x 12 4)) (get x 7 5) (ShiftType.ofBits (get x 5 2)) (regOf (get x 0 4))⟩]

/-- Data processing, register shifted by a register (R107 to R109, R194 to R209). -/
def dpRsrRows : List (Row 32) := [
  ⟨"AND_rsr", 0x0FE00090#32, 0x00000010#32, fun x => .andRsr (Cond.ofBits (get x 28 4)) (flagOf (get x 20 1)) (regOf (get x 16 4)) (regOf (get x 12 4)) (regOf (get x 8 4)) (ShiftType.ofBits (get x 5 2)) (regOf (get x 0 4))⟩,
  ⟨"EOR_rsr", 0x0FE00090#32, 0x00200010#32, fun x => .eorRsr (Cond.ofBits (get x 28 4)) (flagOf (get x 20 1)) (regOf (get x 16 4)) (regOf (get x 12 4)) (regOf (get x 8 4)) (ShiftType.ofBits (get x 5 2)) (regOf (get x 0 4))⟩,
  ⟨"SUB_rsr", 0x0FE00090#32, 0x00400010#32, fun x => .subRsr (Cond.ofBits (get x 28 4)) (flagOf (get x 20 1)) (regOf (get x 16 4)) (regOf (get x 12 4)) (regOf (get x 8 4)) (ShiftType.ofBits (get x 5 2)) (regOf (get x 0 4))⟩,
  ⟨"RSB_rsr", 0x0FE00090#32, 0x00600010#32, fun x => .rsbRsr (Cond.ofBits (get x 28 4)) (flagOf (get x 20 1)) (regOf (get x 16 4)) (regOf (get x 12 4)) (regOf (get x 8 4)) (ShiftType.ofBits (get x 5 2)) (regOf (get x 0 4))⟩,
  ⟨"ADD_rsr", 0x0FE00090#32, 0x00800010#32, fun x => .addRsr (Cond.ofBits (get x 28 4)) (flagOf (get x 20 1)) (regOf (get x 16 4)) (regOf (get x 12 4)) (regOf (get x 8 4)) (ShiftType.ofBits (get x 5 2)) (regOf (get x 0 4))⟩,
  ⟨"ADC_rsr", 0x0FE00090#32, 0x00A00010#32, fun x => .adcRsr (Cond.ofBits (get x 28 4)) (flagOf (get x 20 1)) (regOf (get x 16 4)) (regOf (get x 12 4)) (regOf (get x 8 4)) (ShiftType.ofBits (get x 5 2)) (regOf (get x 0 4))⟩,
  ⟨"SBC_rsr", 0x0FE00090#32, 0x00C00010#32, fun x => .sbcRsr (Cond.ofBits (get x 28 4)) (flagOf (get x 20 1)) (regOf (get x 16 4)) (regOf (get x 12 4)) (regOf (get x 8 4)) (ShiftType.ofBits (get x 5 2)) (regOf (get x 0 4))⟩,
  ⟨"RSC_rsr", 0x0FE00090#32, 0x00E00010#32, fun x => .rscRsr (Cond.ofBits (get x 28 4)) (flagOf (get x 20 1)) (regOf (get x 16 4)) (regOf (get x 12 4)) (regOf (get x 8 4)) (ShiftType.ofBits (get x 5 2)) (regOf (get x 0 4))⟩,
  ⟨"TST_rsr", 0x0FF00090#32, 0x01100010#32, fun x => .tstRsr (Cond.ofBits (get x 28 4)) (regOf (get x 16 4)) (regOf (get x 12 4)) (regOf (get x 8 4)) (ShiftType.ofBits (get x 5 2)) (regOf (get x 0 4))⟩,
  ⟨"TEQ_rsr", 0x0FF00090#32, 0x01300010#32, fun x => .teqRsr (Cond.ofBits (get x 28 4)) (regOf (get x 16 4)) (regOf (get x 12 4)) (regOf (get x 8 4)) (ShiftType.ofBits (get x 5 2)) (regOf (get x 0 4))⟩,
  ⟨"CMP_rsr", 0x0FF00090#32, 0x01500010#32, fun x => .cmpRsr (Cond.ofBits (get x 28 4)) (regOf (get x 16 4)) (regOf (get x 12 4)) (regOf (get x 8 4)) (ShiftType.ofBits (get x 5 2)) (regOf (get x 0 4))⟩,
  ⟨"CMN_rsr", 0x0FF00090#32, 0x01700010#32, fun x => .cmnRsr (Cond.ofBits (get x 28 4)) (regOf (get x 16 4)) (regOf (get x 12 4)) (regOf (get x 8 4)) (ShiftType.ofBits (get x 5 2)) (regOf (get x 0 4))⟩,
  ⟨"ORR_rsr", 0x0FE00090#32, 0x01800010#32, fun x => .orrRsr (Cond.ofBits (get x 28 4)) (flagOf (get x 20 1)) (regOf (get x 16 4)) (regOf (get x 12 4)) (regOf (get x 8 4)) (ShiftType.ofBits (get x 5 2)) (regOf (get x 0 4))⟩,
  ⟨"MOV_rsr", 0x0FE00090#32, 0x01A00010#32, fun x => .movRsr (Cond.ofBits (get x 28 4)) (flagOf (get x 20 1)) (regOf (get x 16 4)) (regOf (get x 12 4)) (regOf (get x 8 4)) (ShiftType.ofBits (get x 5 2)) (regOf (get x 0 4))⟩,
  ⟨"BIC_rsr", 0x0FE00090#32, 0x01C00010#32, fun x => .bicRsr (Cond.ofBits (get x 28 4)) (flagOf (get x 20 1)) (regOf (get x 16 4)) (regOf (get x 12 4)) (regOf (get x 8 4)) (ShiftType.ofBits (get x 5 2)) (regOf (get x 0 4))⟩,
  ⟨"MVN_rsr", 0x0FE00090#32, 0x01E00010#32, fun x => .mvnRsr (Cond.ofBits (get x 28 4)) (flagOf (get x 20 1)) (regOf (get x 16 4)) (regOf (get x 12 4)) (regOf (get x 8 4)) (ShiftType.ofBits (get x 5 2)) (regOf (get x 0 4))⟩]

/-- Branches (R116, R120). -/
def branchRows : List (Row 32) := [
  ⟨"B", 0x0F000000#32, 0x0A000000#32, fun x => .b (Cond.ofBits (get x 28 4)) (get x 0 24)⟩,
  ⟨"BL", 0x0F000000#32, 0x0B000000#32, fun x => .bl (Cond.ofBits (get x 28 4)) (get x 0 24)⟩,
  ⟨"BX", 0x0FF000F0#32, 0x01200010#32, fun x => .bx (Cond.ofBits (get x 28 4)) (regOf (get x 0 4))⟩,
  ⟨"BLX_reg", 0x0FF000F0#32, 0x01200030#32, fun x => .blxReg (Cond.ofBits (get x 28 4)) (regOf (get x 0 4))⟩]

/-- The multiply family (R110 to R113). -/
def multiplyRows : List (Row 32) := [
  ⟨"MUL", 0x0FE000F0#32, 0x00000090#32, fun x => .mul (Cond.ofBits (get x 28 4)) (flagOf (get x 20 1)) (regOf (get x 16 4)) (regOf (get x 8 4)) (regOf (get x 0 4))⟩,
  ⟨"MLA", 0x0FE000F0#32, 0x00200090#32, fun x => .mla (Cond.ofBits (get x 28 4)) (flagOf (get x 20 1)) (regOf (get x 16 4)) (regOf (get x 12 4)) (regOf (get x 8 4)) (regOf (get x 0 4))⟩,
  ⟨"UMULL", 0x0FE000F0#32, 0x00800090#32, fun x => .umull (Cond.ofBits (get x 28 4)) (flagOf (get x 20 1)) (regOf (get x 16 4)) (regOf (get x 12 4)) (regOf (get x 8 4)) (regOf (get x 0 4))⟩,
  ⟨"UMLAL", 0x0FE000F0#32, 0x00A00090#32, fun x => .umlal (Cond.ofBits (get x 28 4)) (flagOf (get x 20 1)) (regOf (get x 16 4)) (regOf (get x 12 4)) (regOf (get x 8 4)) (regOf (get x 0 4))⟩,
  ⟨"SMULL", 0x0FE000F0#32, 0x00C00090#32, fun x => .smull (Cond.ofBits (get x 28 4)) (flagOf (get x 20 1)) (regOf (get x 16 4)) (regOf (get x 12 4)) (regOf (get x 8 4)) (regOf (get x 0 4))⟩,
  ⟨"SMLAL", 0x0FE000F0#32, 0x00E00090#32, fun x => .smlal (Cond.ofBits (get x 28 4)) (flagOf (get x 20 1)) (regOf (get x 16 4)) (regOf (get x 12 4)) (regOf (get x 8 4)) (regOf (get x 0 4))⟩,
  ⟨"UMAAL", 0x0FF000F0#32, 0x00400090#32, fun x => .umaal (Cond.ofBits (get x 28 4)) (regOf (get x 16 4)) (regOf (get x 12 4)) (regOf (get x 8 4)) (regOf (get x 0 4))⟩,
  ⟨"SMLAxy", 0x0FF00090#32, 0x01000080#32, fun x => .smlaxy (Cond.ofBits (get x 28 4)) (regOf (get x 16 4)) (regOf (get x 12 4)) (regOf (get x 8 4)) (flagOf (get x 6 1)) (flagOf (get x 5 1)) (regOf (get x 0 4))⟩,
  ⟨"SMLAWy", 0x0FF000B0#32, 0x01200080#32, fun x => .smlawy (Cond.ofBits (get x 28 4)) (regOf (get x 16 4)) (regOf (get x 12 4)) (regOf (get x 8 4)) (flagOf (get x 6 1)) (regOf (get x 0 4))⟩,
  ⟨"SMULWy", 0x0FF000B0#32, 0x012000A0#32, fun x => .smulwy (Cond.ofBits (get x 28 4)) (regOf (get x 16 4)) (regOf (get x 12 4)) (regOf (get x 8 4)) (flagOf (get x 6 1)) (regOf (get x 0 4))⟩,
  ⟨"SMLALxy", 0x0FF00090#32, 0x01400080#32, fun x => .smlalxy (Cond.ofBits (get x 28 4)) (regOf (get x 16 4)) (regOf (get x 12 4)) (regOf (get x 8 4)) (flagOf (get x 6 1)) (flagOf (get x 5 1)) (regOf (get x 0 4))⟩,
  ⟨"SMULxy", 0x0FF00090#32, 0x01600080#32, fun x => .smulxy (Cond.ofBits (get x 28 4)) (regOf (get x 16 4)) (regOf (get x 8 4)) (flagOf (get x 6 1)) (flagOf (get x 5 1)) (regOf (get x 0 4))⟩]

/-- PSR transfers (R114). -/
def psrRows : List (Row 32) := [
  ⟨"MRS_cpsr", 0x0FF000F0#32, 0x01000000#32, fun x => .mrsCpsr (Cond.ofBits (get x 28 4)) (regOf (get x 12 4))⟩,
  ⟨"MRS_spsr", 0x0FF000F0#32, 0x01400000#32, fun x => .mrsSpsr (Cond.ofBits (get x 28 4)) (regOf (get x 12 4))⟩,
  ⟨"MSR_reg_cpsr", 0x0FF000F0#32, 0x01200000#32, fun x => .msrRegCpsr (Cond.ofBits (get x 28 4)) (get x 16 4) (regOf (get x 0 4))⟩,
  ⟨"MSR_reg_spsr", 0x0FF000F0#32, 0x01600000#32, fun x => .msrRegSpsr (Cond.ofBits (get x 28 4)) (get x 16 4) (regOf (get x 0 4))⟩,
  ⟨"MSR_imm_cpsr", 0x0FF00000#32, 0x03200000#32, fun x => .msrImmCpsr (Cond.ofBits (get x 28 4)) (get x 16 4) (get x 8 4) (get x 0 8)⟩,
  ⟨"MSR_imm_spsr", 0x0FF00000#32, 0x03600000#32, fun x => .msrImmSpsr (Cond.ofBits (get x 28 4)) (get x 16 4) (get x 8 4) (get x 0 8)⟩]

/-- Swap and single data transfers (R115, R117). -/
def singleRows : List (Row 32) := [
  ⟨"SWP", 0x0FF000F0#32, 0x01000090#32, fun x => .swp (Cond.ofBits (get x 28 4)) (regOf (get x 16 4)) (regOf (get x 12 4)) (regOf (get x 0 4))⟩,
  ⟨"SWPB", 0x0FF000F0#32, 0x01400090#32, fun x => .swpb (Cond.ofBits (get x 28 4)) (regOf (get x 16 4)) (regOf (get x 12 4)) (regOf (get x 0 4))⟩,
  ⟨"LDR_imm_pre", 0x0F500000#32, 0x05100000#32, fun x => .ldrImmPre (Cond.ofBits (get x 28 4)) (flagOf (get x 23 1)) (flagOf (get x 21 1)) (regOf (get x 16 4)) (regOf (get x 12 4)) (get x 0 12)⟩,
  ⟨"LDR_reg_pre", 0x0F500010#32, 0x07100000#32, fun x => .ldrRegPre (Cond.ofBits (get x 28 4)) (flagOf (get x 23 1)) (flagOf (get x 21 1)) (regOf (get x 16 4)) (regOf (get x 12 4)) (get x 7 5) (ShiftType.ofBits (get x 5 2)) (regOf (get x 0 4))⟩,
  ⟨"LDR_imm_post", 0x0F700000#32, 0x04100000#32, fun x => .ldrImmPost (Cond.ofBits (get x 28 4)) (flagOf (get x 23 1)) (regOf (get x 16 4)) (regOf (get x 12 4)) (get x 0 12)⟩,
  ⟨"LDR_reg_post", 0x0F700010#32, 0x06100000#32, fun x => .ldrRegPost (Cond.ofBits (get x 28 4)) (flagOf (get x 23 1)) (regOf (get x 16 4)) (regOf (get x 12 4)) (get x 7 5) (ShiftType.ofBits (get x 5 2)) (regOf (get x 0 4))⟩,
  ⟨"LDRT_imm", 0x0F700000#32, 0x04300000#32, fun x => .ldrtImm (Cond.ofBits (get x 28 4)) (flagOf (get x 23 1)) (regOf (get x 16 4)) (regOf (get x 12 4)) (get x 0 12)⟩,
  ⟨"LDRT_reg", 0x0F700010#32, 0x06300000#32, fun x => .ldrtReg (Cond.ofBits (get x 28 4)) (flagOf (get x 23 1)) (regOf (get x 16 4)) (regOf (get x 12 4)) (get x 7 5) (ShiftType.ofBits (get x 5 2)) (regOf (get x 0 4))⟩,
  ⟨"STR_imm_pre", 0x0F500000#32, 0x05000000#32, fun x => .strImmPre (Cond.ofBits (get x 28 4)) (flagOf (get x 23 1)) (flagOf (get x 21 1)) (regOf (get x 16 4)) (regOf (get x 12 4)) (get x 0 12)⟩,
  ⟨"STR_reg_pre", 0x0F500010#32, 0x07000000#32, fun x => .strRegPre (Cond.ofBits (get x 28 4)) (flagOf (get x 23 1)) (flagOf (get x 21 1)) (regOf (get x 16 4)) (regOf (get x 12 4)) (get x 7 5) (ShiftType.ofBits (get x 5 2)) (regOf (get x 0 4))⟩,
  ⟨"STR_imm_post", 0x0F700000#32, 0x04000000#32, fun x => .strImmPost (Cond.ofBits (get x 28 4)) (flagOf (get x 23 1)) (regOf (get x 16 4)) (regOf (get x 12 4)) (get x 0 12)⟩,
  ⟨"STR_reg_post", 0x0F700010#32, 0x06000000#32, fun x => .strRegPost (Cond.ofBits (get x 28 4)) (flagOf (get x 23 1)) (regOf (get x 16 4)) (regOf (get x 12 4)) (get x 7 5) (ShiftType.ofBits (get x 5 2)) (regOf (get x 0 4))⟩,
  ⟨"STRT_imm", 0x0F700000#32, 0x04200000#32, fun x => .strtImm (Cond.ofBits (get x 28 4)) (flagOf (get x 23 1)) (regOf (get x 16 4)) (regOf (get x 12 4)) (get x 0 12)⟩,
  ⟨"STRT_reg", 0x0F700010#32, 0x06200000#32, fun x => .strtReg (Cond.ofBits (get x 28 4)) (flagOf (get x 23 1)) (regOf (get x 16 4)) (regOf (get x 12 4)) (get x 7 5) (ShiftType.ofBits (get x 5 2)) (regOf (get x 0 4))⟩,
  ⟨"LDRB_imm_pre", 0x0F500000#32, 0x05500000#32, fun x => .ldrbImmPre (Cond.ofBits (get x 28 4)) (flagOf (get x 23 1)) (flagOf (get x 21 1)) (regOf (get x 16 4)) (regOf (get x 12 4)) (get x 0 12)⟩,
  ⟨"LDRB_reg_pre", 0x0F500010#32, 0x07500000#32, fun x => .ldrbRegPre (Cond.ofBits (get x 28 4)) (flagOf (get x 23 1)) (flagOf (get x 21 1)) (regOf (get x 16 4)) (regOf (get x 12 4)) (get x 7 5) (ShiftType.ofBits (get x 5 2)) (regOf (get x 0 4))⟩,
  ⟨"LDRB_imm_post", 0x0F700000#32, 0x04500000#32, fun x => .ldrbImmPost (Cond.ofBits (get x 28 4)) (flagOf (get x 23 1)) (regOf (get x 16 4)) (regOf (get x 12 4)) (get x 0 12)⟩,
  ⟨"LDRB_reg_post", 0x0F700010#32, 0x06500000#32, fun x => .ldrbRegPost (Cond.ofBits (get x 28 4)) (flagOf (get x 23 1)) (regOf (get x 16 4)) (regOf (get x 12 4)) (get x 7 5) (ShiftType.ofBits (get x 5 2)) (regOf (get x 0 4))⟩,
  ⟨"LDRBT_imm", 0x0F700000#32, 0x04700000#32, fun x => .ldrbtImm (Cond.ofBits (get x 28 4)) (flagOf (get x 23 1)) (regOf (get x 16 4)) (regOf (get x 12 4)) (get x 0 12)⟩,
  ⟨"LDRBT_reg", 0x0F700010#32, 0x06700000#32, fun x => .ldrbtReg (Cond.ofBits (get x 28 4)) (flagOf (get x 23 1)) (regOf (get x 16 4)) (regOf (get x 12 4)) (get x 7 5) (ShiftType.ofBits (get x 5 2)) (regOf (get x 0 4))⟩,
  ⟨"STRB_imm_pre", 0x0F500000#32, 0x05400000#32, fun x => .strbImmPre (Cond.ofBits (get x 28 4)) (flagOf (get x 23 1)) (flagOf (get x 21 1)) (regOf (get x 16 4)) (regOf (get x 12 4)) (get x 0 12)⟩,
  ⟨"STRB_reg_pre", 0x0F500010#32, 0x07400000#32, fun x => .strbRegPre (Cond.ofBits (get x 28 4)) (flagOf (get x 23 1)) (flagOf (get x 21 1)) (regOf (get x 16 4)) (regOf (get x 12 4)) (get x 7 5) (ShiftType.ofBits (get x 5 2)) (regOf (get x 0 4))⟩,
  ⟨"STRB_imm_post", 0x0F700000#32, 0x04400000#32, fun x => .strbImmPost (Cond.ofBits (get x 28 4)) (flagOf (get x 23 1)) (regOf (get x 16 4)) (regOf (get x 12 4)) (get x 0 12)⟩,
  ⟨"STRB_reg_post", 0x0F700010#32, 0x06400000#32, fun x => .strbRegPost (Cond.ofBits (get x 28 4)) (flagOf (get x 23 1)) (regOf (get x 16 4)) (regOf (get x 12 4)) (get x 7 5) (ShiftType.ofBits (get x 5 2)) (regOf (get x 0 4))⟩,
  ⟨"STRBT_imm", 0x0F700000#32, 0x04600000#32, fun x => .strbtImm (Cond.ofBits (get x 28 4)) (flagOf (get x 23 1)) (regOf (get x 16 4)) (regOf (get x 12 4)) (get x 0 12)⟩,
  ⟨"STRBT_reg", 0x0F700010#32, 0x06600000#32, fun x => .strbtReg (Cond.ofBits (get x 28 4)) (flagOf (get x 23 1)) (regOf (get x 16 4)) (regOf (get x 12 4)) (get x 7 5) (ShiftType.ofBits (get x 5 2)) (regOf (get x 0 4))⟩]

/-- Halfword and signed transfers (R118). -/
def halfRows : List (Row 32) := [
  ⟨"STRH_imm", 0x0E5000F0#32, 0x004000B0#32, fun x => .strhImm (Cond.ofBits (get x 28 4)) (flagOf (get x 24 1)) (flagOf (get x 23 1)) (flagOf (get x 21 1)) (regOf (get x 16 4)) (regOf (get x 12 4)) (get x 8 4) (get x 0 4)⟩,
  ⟨"STRH_reg", 0x0E5000F0#32, 0x000000B0#32, fun x => .strhReg (Cond.ofBits (get x 28 4)) (flagOf (get x 24 1)) (flagOf (get x 23 1)) (flagOf (get x 21 1)) (regOf (get x 16 4)) (regOf (get x 12 4)) (regOf (get x 0 4))⟩,
  ⟨"LDRH_imm", 0x0E5000F0#32, 0x005000B0#32, fun x => .ldrhImm (Cond.ofBits (get x 28 4)) (flagOf (get x 24 1)) (flagOf (get x 23 1)) (flagOf (get x 21 1)) (regOf (get x 16 4)) (regOf (get x 12 4)) (get x 8 4) (get x 0 4)⟩,
  ⟨"LDRH_reg", 0x0E5000F0#32, 0x001000B0#32, fun x => .ldrhReg (Cond.ofBits (get x 28 4)) (flagOf (get x 24 1)) (flagOf (get x 23 1)) (flagOf (get x 21 1)) (regOf (get x 16 4)) (regOf (get x 12 4)) (regOf (get x 0 4))⟩,
  ⟨"LDRSB_imm", 0x0E5000F0#32, 0x005000D0#32, fun x => .ldrsbImm (Cond.ofBits (get x 28 4)) (flagOf (get x 24 1)) (flagOf (get x 23 1)) (flagOf (get x 21 1)) (regOf (get x 16 4)) (regOf (get x 12 4)) (get x 8 4) (get x 0 4)⟩,
  ⟨"LDRSB_reg", 0x0E5000F0#32, 0x001000D0#32, fun x => .ldrsbReg (Cond.ofBits (get x 28 4)) (flagOf (get x 24 1)) (flagOf (get x 23 1)) (flagOf (get x 21 1)) (regOf (get x 16 4)) (regOf (get x 12 4)) (regOf (get x 0 4))⟩,
  ⟨"LDRSH_imm", 0x0E5000F0#32, 0x005000F0#32, fun x => .ldrshImm (Cond.ofBits (get x 28 4)) (flagOf (get x 24 1)) (flagOf (get x 23 1)) (flagOf (get x 21 1)) (regOf (get x 16 4)) (regOf (get x 12 4)) (get x 8 4) (get x 0 4)⟩,
  ⟨"LDRSH_reg", 0x0E5000F0#32, 0x001000F0#32, fun x => .ldrshReg (Cond.ofBits (get x 28 4)) (flagOf (get x 24 1)) (flagOf (get x 23 1)) (flagOf (get x 21 1)) (regOf (get x 16 4)) (regOf (get x 12 4)) (regOf (get x 0 4))⟩]

/-- Block transfers and SWI (R119, R121). -/
def blockRows : List (Row 32) := [
  ⟨"STMIA", 0x0FD00000#32, 0x08800000#32, fun x => .stmia (Cond.ofBits (get x 28 4)) (flagOf (get x 21 1)) (regOf (get x 16 4)) (get x 0 16)⟩,
  ⟨"STMIB", 0x0FD00000#32, 0x09800000#32, fun x => .stmib (Cond.ofBits (get x 28 4)) (flagOf (get x 21 1)) (regOf (get x 16 4)) (get x 0 16)⟩,
  ⟨"STMDA", 0x0FD00000#32, 0x08000000#32, fun x => .stmda (Cond.ofBits (get x 28 4)) (flagOf (get x 21 1)) (regOf (get x 16 4)) (get x 0 16)⟩,
  ⟨"STMDB", 0x0FD00000#32, 0x09000000#32, fun x => .stmdb (Cond.ofBits (get x 28 4)) (flagOf (get x 21 1)) (regOf (get x 16 4)) (get x 0 16)⟩,
  ⟨"LDMIA", 0x0FD00000#32, 0x08900000#32, fun x => .ldmia (Cond.ofBits (get x 28 4)) (flagOf (get x 21 1)) (regOf (get x 16 4)) (get x 0 16)⟩,
  ⟨"LDMIB", 0x0FD00000#32, 0x09900000#32, fun x => .ldmib (Cond.ofBits (get x 28 4)) (flagOf (get x 21 1)) (regOf (get x 16 4)) (get x 0 16)⟩,
  ⟨"LDMDA", 0x0FD00000#32, 0x08100000#32, fun x => .ldmda (Cond.ofBits (get x 28 4)) (flagOf (get x 21 1)) (regOf (get x 16 4)) (get x 0 16)⟩,
  ⟨"LDMDB", 0x0FD00000#32, 0x09100000#32, fun x => .ldmdb (Cond.ofBits (get x 28 4)) (flagOf (get x 21 1)) (regOf (get x 16 4)) (get x 0 16)⟩,
  ⟨"STMIA_usr", 0x0FD00000#32, 0x08C00000#32, fun x => .stmiaUsr (Cond.ofBits (get x 28 4)) (flagOf (get x 21 1)) (regOf (get x 16 4)) (get x 0 16)⟩,
  ⟨"STMIB_usr", 0x0FD00000#32, 0x09C00000#32, fun x => .stmibUsr (Cond.ofBits (get x 28 4)) (flagOf (get x 21 1)) (regOf (get x 16 4)) (get x 0 16)⟩,
  ⟨"STMDA_usr", 0x0FD00000#32, 0x08400000#32, fun x => .stmdaUsr (Cond.ofBits (get x 28 4)) (flagOf (get x 21 1)) (regOf (get x 16 4)) (get x 0 16)⟩,
  ⟨"STMDB_usr", 0x0FD00000#32, 0x09400000#32, fun x => .stmdbUsr (Cond.ofBits (get x 28 4)) (flagOf (get x 21 1)) (regOf (get x 16 4)) (get x 0 16)⟩,
  ⟨"LDMIA_rst", 0x0FD00000#32, 0x08D00000#32, fun x => .ldmiaRst (Cond.ofBits (get x 28 4)) (flagOf (get x 21 1)) (regOf (get x 16 4)) (get x 0 16)⟩,
  ⟨"LDMIB_rst", 0x0FD00000#32, 0x09D00000#32, fun x => .ldmibRst (Cond.ofBits (get x 28 4)) (flagOf (get x 21 1)) (regOf (get x 16 4)) (get x 0 16)⟩,
  ⟨"LDMDA_rst", 0x0FD00000#32, 0x08500000#32, fun x => .ldmdaRst (Cond.ofBits (get x 28 4)) (flagOf (get x 21 1)) (regOf (get x 16 4)) (get x 0 16)⟩,
  ⟨"LDMDB_rst", 0x0FD00000#32, 0x09500000#32, fun x => .ldmdbRst (Cond.ofBits (get x 28 4)) (flagOf (get x 21 1)) (regOf (get x 16 4)) (get x 0 16)⟩,
  ⟨"SWI", 0x0F000000#32, 0x0F000000#32, fun x => .swi (Cond.ofBits (get x 28 4)) (get x 0 24)⟩]

/-- The 121 ARM rows (R133). -/
def armRows : List (Row 32) :=
  dpImmRows ++ dpRsiRows ++ dpRsrRows ++ branchRows ++ multiplyRows ++ psrRows ++ singleRows ++ halfRows ++ blockRows

/-- Thumb formats 1 to 3 (R124). -/
def thumbDataRows : List (Row 16) := [
  ⟨"LSL_imm_T", 0xF800#16, 0x0000#16, fun x => .lslImmT (get x 6 5) (lowOf (get x 3 3)) (lowOf (get x 0 3))⟩,
  ⟨"LSR_imm_T", 0xF800#16, 0x0800#16, fun x => .lsrImmT (get x 6 5) (lowOf (get x 3 3)) (lowOf (get x 0 3))⟩,
  ⟨"ASR_imm_T", 0xF800#16, 0x1000#16, fun x => .asrImmT (get x 6 5) (lowOf (get x 3 3)) (lowOf (get x 0 3))⟩,
  ⟨"ADD_reg_T", 0xFE00#16, 0x1800#16, fun x => .addRegT (lowOf (get x 6 3)) (lowOf (get x 3 3)) (lowOf (get x 0 3))⟩,
  ⟨"SUB_reg_T", 0xFE00#16, 0x1A00#16, fun x => .subRegT (lowOf (get x 6 3)) (lowOf (get x 3 3)) (lowOf (get x 0 3))⟩,
  ⟨"ADD_imm3_T", 0xFE00#16, 0x1C00#16, fun x => .addImm3T (get x 6 3) (lowOf (get x 3 3)) (lowOf (get x 0 3))⟩,
  ⟨"SUB_imm3_T", 0xFE00#16, 0x1E00#16, fun x => .subImm3T (get x 6 3) (lowOf (get x 3 3)) (lowOf (get x 0 3))⟩,
  ⟨"MOV_imm_T", 0xF800#16, 0x2000#16, fun x => .movImmT (lowOf (get x 8 3)) (get x 0 8)⟩,
  ⟨"CMP_imm_T", 0xF800#16, 0x2800#16, fun x => .cmpImmT (lowOf (get x 8 3)) (get x 0 8)⟩,
  ⟨"ADD_imm8_T", 0xF800#16, 0x3000#16, fun x => .addImm8T (lowOf (get x 8 3)) (get x 0 8)⟩,
  ⟨"SUB_imm8_T", 0xF800#16, 0x3800#16, fun x => .subImm8T (lowOf (get x 8 3)) (get x 0 8)⟩]

/-- Thumb formats 4 and 5 (R125). -/
def thumbAluRows : List (Row 16) := [
  ⟨"AND_T", 0xFFC0#16, 0x4000#16, fun x => .andT (lowOf (get x 3 3)) (lowOf (get x 0 3))⟩,
  ⟨"EOR_T", 0xFFC0#16, 0x4040#16, fun x => .eorT (lowOf (get x 3 3)) (lowOf (get x 0 3))⟩,
  ⟨"LSL_reg_T", 0xFFC0#16, 0x4080#16, fun x => .lslRegT (lowOf (get x 3 3)) (lowOf (get x 0 3))⟩,
  ⟨"LSR_reg_T", 0xFFC0#16, 0x40C0#16, fun x => .lsrRegT (lowOf (get x 3 3)) (lowOf (get x 0 3))⟩,
  ⟨"ASR_reg_T", 0xFFC0#16, 0x4100#16, fun x => .asrRegT (lowOf (get x 3 3)) (lowOf (get x 0 3))⟩,
  ⟨"ADC_T", 0xFFC0#16, 0x4140#16, fun x => .adcT (lowOf (get x 3 3)) (lowOf (get x 0 3))⟩,
  ⟨"SBC_T", 0xFFC0#16, 0x4180#16, fun x => .sbcT (lowOf (get x 3 3)) (lowOf (get x 0 3))⟩,
  ⟨"ROR_T", 0xFFC0#16, 0x41C0#16, fun x => .rorT (lowOf (get x 3 3)) (lowOf (get x 0 3))⟩,
  ⟨"TST_T", 0xFFC0#16, 0x4200#16, fun x => .tstT (lowOf (get x 3 3)) (lowOf (get x 0 3))⟩,
  ⟨"NEG_T", 0xFFC0#16, 0x4240#16, fun x => .negT (lowOf (get x 3 3)) (lowOf (get x 0 3))⟩,
  ⟨"CMP_reg_T", 0xFFC0#16, 0x4280#16, fun x => .cmpRegT (lowOf (get x 3 3)) (lowOf (get x 0 3))⟩,
  ⟨"CMN_T", 0xFFC0#16, 0x42C0#16, fun x => .cmnT (lowOf (get x 3 3)) (lowOf (get x 0 3))⟩,
  ⟨"ORR_T", 0xFFC0#16, 0x4300#16, fun x => .orrT (lowOf (get x 3 3)) (lowOf (get x 0 3))⟩,
  ⟨"MUL_T", 0xFFC0#16, 0x4340#16, fun x => .mulT (lowOf (get x 3 3)) (lowOf (get x 0 3))⟩,
  ⟨"BIC_T", 0xFFC0#16, 0x4380#16, fun x => .bicT (lowOf (get x 3 3)) (lowOf (get x 0 3))⟩,
  ⟨"MVN_T", 0xFFC0#16, 0x43C0#16, fun x => .mvnT (lowOf (get x 3 3)) (lowOf (get x 0 3))⟩,
  ⟨"ADD_hi_T", 0xFF00#16, 0x4400#16, fun x => .addHiT (flagOf (get x 7 1)) (flagOf (get x 6 1)) (lowOf (get x 3 3)) (lowOf (get x 0 3))⟩,
  ⟨"CMP_hi_T", 0xFF00#16, 0x4500#16, fun x => .cmpHiT (flagOf (get x 7 1)) (flagOf (get x 6 1)) (lowOf (get x 3 3)) (lowOf (get x 0 3))⟩,
  ⟨"MOV_hi_T", 0xFF00#16, 0x4600#16, fun x => .movHiT (flagOf (get x 7 1)) (flagOf (get x 6 1)) (lowOf (get x 3 3)) (lowOf (get x 0 3))⟩,
  ⟨"BX_T", 0xFF80#16, 0x4700#16, fun x => .bxT (flagOf (get x 6 1)) (lowOf (get x 3 3))⟩,
  ⟨"BX_H1_T", 0xFF80#16, 0x4780#16, fun x => .bxH1T (flagOf (get x 6 1)) (lowOf (get x 3 3))⟩]

/-- Thumb formats 6 to 15 (R126, R127). -/
def thumbMemRows : List (Row 16) := [
  ⟨"LDR_pc_T", 0xF800#16, 0x4800#16, fun x => .ldrPcT (lowOf (get x 8 3)) (get x 0 8)⟩,
  ⟨"STR_reg_T", 0xFE00#16, 0x5000#16, fun x => .strRegT (lowOf (get x 6 3)) (lowOf (get x 3 3)) (lowOf (get x 0 3))⟩,
  ⟨"STRB_reg_T", 0xFE00#16, 0x5400#16, fun x => .strbRegT (lowOf (get x 6 3)) (lowOf (get x 3 3)) (lowOf (get x 0 3))⟩,
  ⟨"LDR_reg_T", 0xFE00#16, 0x5800#16, fun x => .ldrRegT (lowOf (get x 6 3)) (lowOf (get x 3 3)) (lowOf (get x 0 3))⟩,
  ⟨"LDRB_reg_T", 0xFE00#16, 0x5C00#16, fun x => .ldrbRegT (lowOf (get x 6 3)) (lowOf (get x 3 3)) (lowOf (get x 0 3))⟩,
  ⟨"STRH_reg_T", 0xFE00#16, 0x5200#16, fun x => .strhRegT (lowOf (get x 6 3)) (lowOf (get x 3 3)) (lowOf (get x 0 3))⟩,
  ⟨"LDSB_reg_T", 0xFE00#16, 0x5600#16, fun x => .ldsbRegT (lowOf (get x 6 3)) (lowOf (get x 3 3)) (lowOf (get x 0 3))⟩,
  ⟨"LDRH_reg_T", 0xFE00#16, 0x5A00#16, fun x => .ldrhRegT (lowOf (get x 6 3)) (lowOf (get x 3 3)) (lowOf (get x 0 3))⟩,
  ⟨"LDSH_reg_T", 0xFE00#16, 0x5E00#16, fun x => .ldshRegT (lowOf (get x 6 3)) (lowOf (get x 3 3)) (lowOf (get x 0 3))⟩,
  ⟨"STR_imm_T", 0xF800#16, 0x6000#16, fun x => .strImmT (get x 6 5) (lowOf (get x 3 3)) (lowOf (get x 0 3))⟩,
  ⟨"LDR_imm_T", 0xF800#16, 0x6800#16, fun x => .ldrImmT (get x 6 5) (lowOf (get x 3 3)) (lowOf (get x 0 3))⟩,
  ⟨"STRB_imm_T", 0xF800#16, 0x7000#16, fun x => .strbImmT (get x 6 5) (lowOf (get x 3 3)) (lowOf (get x 0 3))⟩,
  ⟨"LDRB_imm_T", 0xF800#16, 0x7800#16, fun x => .ldrbImmT (get x 6 5) (lowOf (get x 3 3)) (lowOf (get x 0 3))⟩,
  ⟨"STRH_imm_T", 0xF800#16, 0x8000#16, fun x => .strhImmT (get x 6 5) (lowOf (get x 3 3)) (lowOf (get x 0 3))⟩,
  ⟨"LDRH_imm_T", 0xF800#16, 0x8800#16, fun x => .ldrhImmT (get x 6 5) (lowOf (get x 3 3)) (lowOf (get x 0 3))⟩,
  ⟨"STR_sp_T", 0xF800#16, 0x9000#16, fun x => .strSpT (lowOf (get x 8 3)) (get x 0 8)⟩,
  ⟨"LDR_sp_T", 0xF800#16, 0x9800#16, fun x => .ldrSpT (lowOf (get x 8 3)) (get x 0 8)⟩,
  ⟨"ADD_pc_T", 0xF800#16, 0xA000#16, fun x => .addPcT (lowOf (get x 8 3)) (get x 0 8)⟩,
  ⟨"ADD_sp_T", 0xF800#16, 0xA800#16, fun x => .addSpT (lowOf (get x 8 3)) (get x 0 8)⟩,
  ⟨"ADD_spimm_T", 0xFF80#16, 0xB000#16, fun x => .addSpimmT (get x 0 7)⟩,
  ⟨"SUB_spimm_T", 0xFF80#16, 0xB080#16, fun x => .subSpimmT (get x 0 7)⟩,
  ⟨"PUSH_T", 0xFE00#16, 0xB400#16, fun x => .pushT (flagOf (get x 8 1)) (get x 0 8)⟩,
  ⟨"POP_T", 0xFE00#16, 0xBC00#16, fun x => .popT (flagOf (get x 8 1)) (get x 0 8)⟩,
  ⟨"STMIA_T", 0xF800#16, 0xC000#16, fun x => .stmiaT (lowOf (get x 8 3)) (get x 0 8)⟩,
  ⟨"LDMIA_T", 0xF800#16, 0xC800#16, fun x => .ldmiaT (lowOf (get x 8 3)) (get x 0 8)⟩]

/-- Thumb formats 16 to 19 (R128). -/
def thumbBranchRows : List (Row 16) := [
  ⟨"BEQ_T", 0xFF00#16, 0xD000#16, fun x => .beqT (get x 0 8)⟩,
  ⟨"BNE_T", 0xFF00#16, 0xD100#16, fun x => .bneT (get x 0 8)⟩,
  ⟨"BCS_T", 0xFF00#16, 0xD200#16, fun x => .bcsT (get x 0 8)⟩,
  ⟨"BCC_T", 0xFF00#16, 0xD300#16, fun x => .bccT (get x 0 8)⟩,
  ⟨"BMI_T", 0xFF00#16, 0xD400#16, fun x => .bmiT (get x 0 8)⟩,
  ⟨"BPL_T", 0xFF00#16, 0xD500#16, fun x => .bplT (get x 0 8)⟩,
  ⟨"BVS_T", 0xFF00#16, 0xD600#16, fun x => .bvsT (get x 0 8)⟩,
  ⟨"BVC_T", 0xFF00#16, 0xD700#16, fun x => .bvcT (get x 0 8)⟩,
  ⟨"BHI_T", 0xFF00#16, 0xD800#16, fun x => .bhiT (get x 0 8)⟩,
  ⟨"BLS_T", 0xFF00#16, 0xD900#16, fun x => .blsT (get x 0 8)⟩,
  ⟨"BGE_T", 0xFF00#16, 0xDA00#16, fun x => .bgeT (get x 0 8)⟩,
  ⟨"BLT_T", 0xFF00#16, 0xDB00#16, fun x => .bltT (get x 0 8)⟩,
  ⟨"BGT_T", 0xFF00#16, 0xDC00#16, fun x => .bgtT (get x 0 8)⟩,
  ⟨"BLE_T", 0xFF00#16, 0xDD00#16, fun x => .bleT (get x 0 8)⟩,
  ⟨"SWI_T", 0xFF00#16, 0xDF00#16, fun x => .swiT (get x 0 8)⟩,
  ⟨"B_T", 0xF800#16, 0xE000#16, fun x => .bT (get x 0 11)⟩,
  ⟨"BL_hi_T", 0xF800#16, 0xF000#16, fun x => .blHiT (get x 0 11)⟩,
  ⟨"BL_lo_T", 0xF800#16, 0xF800#16, fun x => .blLoT (get x 0 11)⟩]

/-- The 75 Thumb rows (R133). -/
def thumbRows : List (Row 16) :=
  thumbDataRows ++ thumbAluRows ++ thumbMemRows ++ thumbBranchRows

/-! ### The decoder -/

/-- The row a word is of, if any. -/
def rowOf {w : Nat} (rows : List (Row w)) (v : BitVec w) : Option (Row w) :=
  rows.find? fun r => r.accepts v

/-- The instruction of an ARM word; a word of no row is UNDEFINED (R106). -/
def decodeArm (word : Word) : Except Rejected Instr :=
  match rowOf armRows word with
  | some r => .ok (r.build word)
  | none => .error (.undefinedArm word)

/-- The instruction of a Thumb halfword; a halfword of no row is UNDEFINED (R130). -/
def decodeThumb (half : Half) : Except Rejected Instr :=
  match rowOf thumbRows half with
  | some r => .ok (r.build half)
  | none => .error (.undefinedThumb half)

/-- The decoder. -/
def decode : Code → Except Rejected Instr
  | .arm word => decodeArm word
  | .thumb half => decodeThumb half

/-- The decoder on bytes, from the lowest address up, in the byte order `big`: the instruction and the bytes after it. -/
def decodeBytes (thumb big : Bool) (bs : List Byte) : Except Rejected (Instr × List Byte) :=
  if thumb then
    match bs with
    | b0 :: b1 :: rest => (decodeThumb ((assemble big [b0, b1]).setWidth 16)).map fun i => (i, rest)
    | _ => .error .tooShort
  else
    match bs with
    | b0 :: b1 :: b2 :: b3 :: rest => (decodeArm (assemble big [b0, b1, b2, b3])).map fun i => (i, rest)
    | _ => .error .tooShort

/-- The instruction the decoder reads from the bits `w` of a table row: a row of at most 16 bits is a Thumb halfword, a
longer one an ARM word. It is laid out in little-endian bytes, as reset's `CPSR.E = 0` stores it, and decoded. -/
def decodeTableWord (nbits w : Nat) : Option Instr :=
  let thumb := nbits ≤ 16
  match decodeBytes thumb false (disassemble false (if thumb then 2 else 4) (BitVec.ofNat 32 w)) with
  | .ok (i, _) => some i
  | .error _ => none

/-! ### The encoder

A field the spec calls ignored is written as the spec's own examples write it: 0, but 0xFFF in bits 19:8 of BX and BLX, 0xF in
bits 19:16 of MRS and 15:12 of MSR (41 R183, 44 R250, R252; log 10). -/

/-- The encoding of an instruction: its row's value with its fields put in. -/
def encode : Instr → Code
  | .andImm c setf rn rd rot imm8 => .arm (0x02000000#32 ||| put 32 28 c.bits ||| put 32 20 (flagBits setf) ||| put 32 16 (regBits rn) ||| put 32 12 (regBits rd) ||| put 32 8 rot ||| put 32 0 imm8)
  | .andRsi c setf rn rd shiftImm st rm => .arm (0x00000000#32 ||| put 32 28 c.bits ||| put 32 20 (flagBits setf) ||| put 32 16 (regBits rn) ||| put 32 12 (regBits rd) ||| put 32 7 shiftImm ||| put 32 5 st.bits ||| put 32 0 (regBits rm))
  | .andRsr c setf rn rd rs st rm => .arm (0x00000010#32 ||| put 32 28 c.bits ||| put 32 20 (flagBits setf) ||| put 32 16 (regBits rn) ||| put 32 12 (regBits rd) ||| put 32 8 (regBits rs) ||| put 32 5 st.bits ||| put 32 0 (regBits rm))
  | .eorImm c setf rn rd rot imm8 => .arm (0x02200000#32 ||| put 32 28 c.bits ||| put 32 20 (flagBits setf) ||| put 32 16 (regBits rn) ||| put 32 12 (regBits rd) ||| put 32 8 rot ||| put 32 0 imm8)
  | .eorRsi c setf rn rd shiftImm st rm => .arm (0x00200000#32 ||| put 32 28 c.bits ||| put 32 20 (flagBits setf) ||| put 32 16 (regBits rn) ||| put 32 12 (regBits rd) ||| put 32 7 shiftImm ||| put 32 5 st.bits ||| put 32 0 (regBits rm))
  | .eorRsr c setf rn rd rs st rm => .arm (0x00200010#32 ||| put 32 28 c.bits ||| put 32 20 (flagBits setf) ||| put 32 16 (regBits rn) ||| put 32 12 (regBits rd) ||| put 32 8 (regBits rs) ||| put 32 5 st.bits ||| put 32 0 (regBits rm))
  | .subImm c setf rn rd rot imm8 => .arm (0x02400000#32 ||| put 32 28 c.bits ||| put 32 20 (flagBits setf) ||| put 32 16 (regBits rn) ||| put 32 12 (regBits rd) ||| put 32 8 rot ||| put 32 0 imm8)
  | .subRsi c setf rn rd shiftImm st rm => .arm (0x00400000#32 ||| put 32 28 c.bits ||| put 32 20 (flagBits setf) ||| put 32 16 (regBits rn) ||| put 32 12 (regBits rd) ||| put 32 7 shiftImm ||| put 32 5 st.bits ||| put 32 0 (regBits rm))
  | .subRsr c setf rn rd rs st rm => .arm (0x00400010#32 ||| put 32 28 c.bits ||| put 32 20 (flagBits setf) ||| put 32 16 (regBits rn) ||| put 32 12 (regBits rd) ||| put 32 8 (regBits rs) ||| put 32 5 st.bits ||| put 32 0 (regBits rm))
  | .rsbImm c setf rn rd rot imm8 => .arm (0x02600000#32 ||| put 32 28 c.bits ||| put 32 20 (flagBits setf) ||| put 32 16 (regBits rn) ||| put 32 12 (regBits rd) ||| put 32 8 rot ||| put 32 0 imm8)
  | .rsbRsi c setf rn rd shiftImm st rm => .arm (0x00600000#32 ||| put 32 28 c.bits ||| put 32 20 (flagBits setf) ||| put 32 16 (regBits rn) ||| put 32 12 (regBits rd) ||| put 32 7 shiftImm ||| put 32 5 st.bits ||| put 32 0 (regBits rm))
  | .rsbRsr c setf rn rd rs st rm => .arm (0x00600010#32 ||| put 32 28 c.bits ||| put 32 20 (flagBits setf) ||| put 32 16 (regBits rn) ||| put 32 12 (regBits rd) ||| put 32 8 (regBits rs) ||| put 32 5 st.bits ||| put 32 0 (regBits rm))
  | .addImm c setf rn rd rot imm8 => .arm (0x02800000#32 ||| put 32 28 c.bits ||| put 32 20 (flagBits setf) ||| put 32 16 (regBits rn) ||| put 32 12 (regBits rd) ||| put 32 8 rot ||| put 32 0 imm8)
  | .addRsi c setf rn rd shiftImm st rm => .arm (0x00800000#32 ||| put 32 28 c.bits ||| put 32 20 (flagBits setf) ||| put 32 16 (regBits rn) ||| put 32 12 (regBits rd) ||| put 32 7 shiftImm ||| put 32 5 st.bits ||| put 32 0 (regBits rm))
  | .addRsr c setf rn rd rs st rm => .arm (0x00800010#32 ||| put 32 28 c.bits ||| put 32 20 (flagBits setf) ||| put 32 16 (regBits rn) ||| put 32 12 (regBits rd) ||| put 32 8 (regBits rs) ||| put 32 5 st.bits ||| put 32 0 (regBits rm))
  | .adcImm c setf rn rd rot imm8 => .arm (0x02A00000#32 ||| put 32 28 c.bits ||| put 32 20 (flagBits setf) ||| put 32 16 (regBits rn) ||| put 32 12 (regBits rd) ||| put 32 8 rot ||| put 32 0 imm8)
  | .adcRsi c setf rn rd shiftImm st rm => .arm (0x00A00000#32 ||| put 32 28 c.bits ||| put 32 20 (flagBits setf) ||| put 32 16 (regBits rn) ||| put 32 12 (regBits rd) ||| put 32 7 shiftImm ||| put 32 5 st.bits ||| put 32 0 (regBits rm))
  | .adcRsr c setf rn rd rs st rm => .arm (0x00A00010#32 ||| put 32 28 c.bits ||| put 32 20 (flagBits setf) ||| put 32 16 (regBits rn) ||| put 32 12 (regBits rd) ||| put 32 8 (regBits rs) ||| put 32 5 st.bits ||| put 32 0 (regBits rm))
  | .sbcImm c setf rn rd rot imm8 => .arm (0x02C00000#32 ||| put 32 28 c.bits ||| put 32 20 (flagBits setf) ||| put 32 16 (regBits rn) ||| put 32 12 (regBits rd) ||| put 32 8 rot ||| put 32 0 imm8)
  | .sbcRsi c setf rn rd shiftImm st rm => .arm (0x00C00000#32 ||| put 32 28 c.bits ||| put 32 20 (flagBits setf) ||| put 32 16 (regBits rn) ||| put 32 12 (regBits rd) ||| put 32 7 shiftImm ||| put 32 5 st.bits ||| put 32 0 (regBits rm))
  | .sbcRsr c setf rn rd rs st rm => .arm (0x00C00010#32 ||| put 32 28 c.bits ||| put 32 20 (flagBits setf) ||| put 32 16 (regBits rn) ||| put 32 12 (regBits rd) ||| put 32 8 (regBits rs) ||| put 32 5 st.bits ||| put 32 0 (regBits rm))
  | .rscImm c setf rn rd rot imm8 => .arm (0x02E00000#32 ||| put 32 28 c.bits ||| put 32 20 (flagBits setf) ||| put 32 16 (regBits rn) ||| put 32 12 (regBits rd) ||| put 32 8 rot ||| put 32 0 imm8)
  | .rscRsi c setf rn rd shiftImm st rm => .arm (0x00E00000#32 ||| put 32 28 c.bits ||| put 32 20 (flagBits setf) ||| put 32 16 (regBits rn) ||| put 32 12 (regBits rd) ||| put 32 7 shiftImm ||| put 32 5 st.bits ||| put 32 0 (regBits rm))
  | .rscRsr c setf rn rd rs st rm => .arm (0x00E00010#32 ||| put 32 28 c.bits ||| put 32 20 (flagBits setf) ||| put 32 16 (regBits rn) ||| put 32 12 (regBits rd) ||| put 32 8 (regBits rs) ||| put 32 5 st.bits ||| put 32 0 (regBits rm))
  | .tstImm c rn rot imm8 => .arm (0x03100000#32 ||| put 32 28 c.bits ||| put 32 16 (regBits rn) ||| put 32 8 rot ||| put 32 0 imm8)
  | .tstRsi c rn shiftImm st rm => .arm (0x01100000#32 ||| put 32 28 c.bits ||| put 32 16 (regBits rn) ||| put 32 7 shiftImm ||| put 32 5 st.bits ||| put 32 0 (regBits rm))
  | .tstRsr c rn rd rs st rm => .arm (0x01100010#32 ||| put 32 28 c.bits ||| put 32 16 (regBits rn) ||| put 32 12 (regBits rd) ||| put 32 8 (regBits rs) ||| put 32 5 st.bits ||| put 32 0 (regBits rm))
  | .teqImm c rn rot imm8 => .arm (0x03300000#32 ||| put 32 28 c.bits ||| put 32 16 (regBits rn) ||| put 32 8 rot ||| put 32 0 imm8)
  | .teqRsi c rn shiftImm st rm => .arm (0x01300000#32 ||| put 32 28 c.bits ||| put 32 16 (regBits rn) ||| put 32 7 shiftImm ||| put 32 5 st.bits ||| put 32 0 (regBits rm))
  | .teqRsr c rn rd rs st rm => .arm (0x01300010#32 ||| put 32 28 c.bits ||| put 32 16 (regBits rn) ||| put 32 12 (regBits rd) ||| put 32 8 (regBits rs) ||| put 32 5 st.bits ||| put 32 0 (regBits rm))
  | .cmpImm c rn rot imm8 => .arm (0x03500000#32 ||| put 32 28 c.bits ||| put 32 16 (regBits rn) ||| put 32 8 rot ||| put 32 0 imm8)
  | .cmpRsi c rn shiftImm st rm => .arm (0x01500000#32 ||| put 32 28 c.bits ||| put 32 16 (regBits rn) ||| put 32 7 shiftImm ||| put 32 5 st.bits ||| put 32 0 (regBits rm))
  | .cmpRsr c rn rd rs st rm => .arm (0x01500010#32 ||| put 32 28 c.bits ||| put 32 16 (regBits rn) ||| put 32 12 (regBits rd) ||| put 32 8 (regBits rs) ||| put 32 5 st.bits ||| put 32 0 (regBits rm))
  | .cmnImm c rn rot imm8 => .arm (0x03700000#32 ||| put 32 28 c.bits ||| put 32 16 (regBits rn) ||| put 32 8 rot ||| put 32 0 imm8)
  | .cmnRsi c rn shiftImm st rm => .arm (0x01700000#32 ||| put 32 28 c.bits ||| put 32 16 (regBits rn) ||| put 32 7 shiftImm ||| put 32 5 st.bits ||| put 32 0 (regBits rm))
  | .cmnRsr c rn rd rs st rm => .arm (0x01700010#32 ||| put 32 28 c.bits ||| put 32 16 (regBits rn) ||| put 32 12 (regBits rd) ||| put 32 8 (regBits rs) ||| put 32 5 st.bits ||| put 32 0 (regBits rm))
  | .orrImm c setf rn rd rot imm8 => .arm (0x03800000#32 ||| put 32 28 c.bits ||| put 32 20 (flagBits setf) ||| put 32 16 (regBits rn) ||| put 32 12 (regBits rd) ||| put 32 8 rot ||| put 32 0 imm8)
  | .orrRsi c setf rn rd shiftImm st rm => .arm (0x01800000#32 ||| put 32 28 c.bits ||| put 32 20 (flagBits setf) ||| put 32 16 (regBits rn) ||| put 32 12 (regBits rd) ||| put 32 7 shiftImm ||| put 32 5 st.bits ||| put 32 0 (regBits rm))
  | .orrRsr c setf rn rd rs st rm => .arm (0x01800010#32 ||| put 32 28 c.bits ||| put 32 20 (flagBits setf) ||| put 32 16 (regBits rn) ||| put 32 12 (regBits rd) ||| put 32 8 (regBits rs) ||| put 32 5 st.bits ||| put 32 0 (regBits rm))
  | .movImm c setf rd rot imm8 => .arm (0x03A00000#32 ||| put 32 28 c.bits ||| put 32 20 (flagBits setf) ||| put 32 12 (regBits rd) ||| put 32 8 rot ||| put 32 0 imm8)
  | .movRsi c setf rd shiftImm st rm => .arm (0x01A00000#32 ||| put 32 28 c.bits ||| put 32 20 (flagBits setf) ||| put 32 12 (regBits rd) ||| put 32 7 shiftImm ||| put 32 5 st.bits ||| put 32 0 (regBits rm))
  | .movRsr c setf rn rd rs st rm => .arm (0x01A00010#32 ||| put 32 28 c.bits ||| put 32 20 (flagBits setf) ||| put 32 16 (regBits rn) ||| put 32 12 (regBits rd) ||| put 32 8 (regBits rs) ||| put 32 5 st.bits ||| put 32 0 (regBits rm))
  | .bicImm c setf rn rd rot imm8 => .arm (0x03C00000#32 ||| put 32 28 c.bits ||| put 32 20 (flagBits setf) ||| put 32 16 (regBits rn) ||| put 32 12 (regBits rd) ||| put 32 8 rot ||| put 32 0 imm8)
  | .bicRsi c setf rn rd shiftImm st rm => .arm (0x01C00000#32 ||| put 32 28 c.bits ||| put 32 20 (flagBits setf) ||| put 32 16 (regBits rn) ||| put 32 12 (regBits rd) ||| put 32 7 shiftImm ||| put 32 5 st.bits ||| put 32 0 (regBits rm))
  | .bicRsr c setf rn rd rs st rm => .arm (0x01C00010#32 ||| put 32 28 c.bits ||| put 32 20 (flagBits setf) ||| put 32 16 (regBits rn) ||| put 32 12 (regBits rd) ||| put 32 8 (regBits rs) ||| put 32 5 st.bits ||| put 32 0 (regBits rm))
  | .mvnImm c setf rd rot imm8 => .arm (0x03E00000#32 ||| put 32 28 c.bits ||| put 32 20 (flagBits setf) ||| put 32 12 (regBits rd) ||| put 32 8 rot ||| put 32 0 imm8)
  | .mvnRsi c setf rd shiftImm st rm => .arm (0x01E00000#32 ||| put 32 28 c.bits ||| put 32 20 (flagBits setf) ||| put 32 12 (regBits rd) ||| put 32 7 shiftImm ||| put 32 5 st.bits ||| put 32 0 (regBits rm))
  | .mvnRsr c setf rn rd rs st rm => .arm (0x01E00010#32 ||| put 32 28 c.bits ||| put 32 20 (flagBits setf) ||| put 32 16 (regBits rn) ||| put 32 12 (regBits rd) ||| put 32 8 (regBits rs) ||| put 32 5 st.bits ||| put 32 0 (regBits rm))
  | .b c offset24 => .arm (0x0A000000#32 ||| put 32 28 c.bits ||| put 32 0 offset24)
  | .bl c offset24 => .arm (0x0B000000#32 ||| put 32 28 c.bits ||| put 32 0 offset24)
  | .bx c rm => .arm (0x012FFF10#32 ||| put 32 28 c.bits ||| put 32 0 (regBits rm))
  | .blxReg c rm => .arm (0x012FFF30#32 ||| put 32 28 c.bits ||| put 32 0 (regBits rm))
  | .mul c setf rd rs rm => .arm (0x00000090#32 ||| put 32 28 c.bits ||| put 32 20 (flagBits setf) ||| put 32 16 (regBits rd) ||| put 32 8 (regBits rs) ||| put 32 0 (regBits rm))
  | .mla c setf rd rn rs rm => .arm (0x00200090#32 ||| put 32 28 c.bits ||| put 32 20 (flagBits setf) ||| put 32 16 (regBits rd) ||| put 32 12 (regBits rn) ||| put 32 8 (regBits rs) ||| put 32 0 (regBits rm))
  | .umull c setf rdHi rdLo rs rm => .arm (0x00800090#32 ||| put 32 28 c.bits ||| put 32 20 (flagBits setf) ||| put 32 16 (regBits rdHi) ||| put 32 12 (regBits rdLo) ||| put 32 8 (regBits rs) ||| put 32 0 (regBits rm))
  | .umlal c setf rdHi rdLo rs rm => .arm (0x00A00090#32 ||| put 32 28 c.bits ||| put 32 20 (flagBits setf) ||| put 32 16 (regBits rdHi) ||| put 32 12 (regBits rdLo) ||| put 32 8 (regBits rs) ||| put 32 0 (regBits rm))
  | .smull c setf rdHi rdLo rs rm => .arm (0x00C00090#32 ||| put 32 28 c.bits ||| put 32 20 (flagBits setf) ||| put 32 16 (regBits rdHi) ||| put 32 12 (regBits rdLo) ||| put 32 8 (regBits rs) ||| put 32 0 (regBits rm))
  | .smlal c setf rdHi rdLo rs rm => .arm (0x00E00090#32 ||| put 32 28 c.bits ||| put 32 20 (flagBits setf) ||| put 32 16 (regBits rdHi) ||| put 32 12 (regBits rdLo) ||| put 32 8 (regBits rs) ||| put 32 0 (regBits rm))
  | .umaal c rdHi rdLo rs rm => .arm (0x00400090#32 ||| put 32 28 c.bits ||| put 32 16 (regBits rdHi) ||| put 32 12 (regBits rdLo) ||| put 32 8 (regBits rs) ||| put 32 0 (regBits rm))
  | .smlaxy c rd rn rs y x rm => .arm (0x01000080#32 ||| put 32 28 c.bits ||| put 32 16 (regBits rd) ||| put 32 12 (regBits rn) ||| put 32 8 (regBits rs) ||| put 32 6 (flagBits y) ||| put 32 5 (flagBits x) ||| put 32 0 (regBits rm))
  | .smlawy c rd rn rs y rm => .arm (0x01200080#32 ||| put 32 28 c.bits ||| put 32 16 (regBits rd) ||| put 32 12 (regBits rn) ||| put 32 8 (regBits rs) ||| put 32 6 (flagBits y) ||| put 32 0 (regBits rm))
  | .smulwy c rd rn rs y rm => .arm (0x012000A0#32 ||| put 32 28 c.bits ||| put 32 16 (regBits rd) ||| put 32 12 (regBits rn) ||| put 32 8 (regBits rs) ||| put 32 6 (flagBits y) ||| put 32 0 (regBits rm))
  | .smlalxy c rdHi rdLo rs y x rm => .arm (0x01400080#32 ||| put 32 28 c.bits ||| put 32 16 (regBits rdHi) ||| put 32 12 (regBits rdLo) ||| put 32 8 (regBits rs) ||| put 32 6 (flagBits y) ||| put 32 5 (flagBits x) ||| put 32 0 (regBits rm))
  | .smulxy c rd rs y x rm => .arm (0x01600080#32 ||| put 32 28 c.bits ||| put 32 16 (regBits rd) ||| put 32 8 (regBits rs) ||| put 32 6 (flagBits y) ||| put 32 5 (flagBits x) ||| put 32 0 (regBits rm))
  | .mrsCpsr c rd => .arm (0x010F0000#32 ||| put 32 28 c.bits ||| put 32 12 (regBits rd))
  | .mrsSpsr c rd => .arm (0x014F0000#32 ||| put 32 28 c.bits ||| put 32 12 (regBits rd))
  | .msrRegCpsr c mask rm => .arm (0x0120F000#32 ||| put 32 28 c.bits ||| put 32 16 mask ||| put 32 0 (regBits rm))
  | .msrRegSpsr c mask rm => .arm (0x0160F000#32 ||| put 32 28 c.bits ||| put 32 16 mask ||| put 32 0 (regBits rm))
  | .msrImmCpsr c mask rot imm8 => .arm (0x0320F000#32 ||| put 32 28 c.bits ||| put 32 16 mask ||| put 32 8 rot ||| put 32 0 imm8)
  | .msrImmSpsr c mask rot imm8 => .arm (0x0360F000#32 ||| put 32 28 c.bits ||| put 32 16 mask ||| put 32 8 rot ||| put 32 0 imm8)
  | .swp c rn rd rm => .arm (0x01000090#32 ||| put 32 28 c.bits ||| put 32 16 (regBits rn) ||| put 32 12 (regBits rd) ||| put 32 0 (regBits rm))
  | .swpb c rn rd rm => .arm (0x01400090#32 ||| put 32 28 c.bits ||| put 32 16 (regBits rn) ||| put 32 12 (regBits rd) ||| put 32 0 (regBits rm))
  | .ldrImmPre c u w rn rd imm12 => .arm (0x05100000#32 ||| put 32 28 c.bits ||| put 32 23 (flagBits u) ||| put 32 21 (flagBits w) ||| put 32 16 (regBits rn) ||| put 32 12 (regBits rd) ||| put 32 0 imm12)
  | .ldrRegPre c u w rn rd shiftImm st rm => .arm (0x07100000#32 ||| put 32 28 c.bits ||| put 32 23 (flagBits u) ||| put 32 21 (flagBits w) ||| put 32 16 (regBits rn) ||| put 32 12 (regBits rd) ||| put 32 7 shiftImm ||| put 32 5 st.bits ||| put 32 0 (regBits rm))
  | .ldrImmPost c u rn rd imm12 => .arm (0x04100000#32 ||| put 32 28 c.bits ||| put 32 23 (flagBits u) ||| put 32 16 (regBits rn) ||| put 32 12 (regBits rd) ||| put 32 0 imm12)
  | .ldrRegPost c u rn rd shiftImm st rm => .arm (0x06100000#32 ||| put 32 28 c.bits ||| put 32 23 (flagBits u) ||| put 32 16 (regBits rn) ||| put 32 12 (regBits rd) ||| put 32 7 shiftImm ||| put 32 5 st.bits ||| put 32 0 (regBits rm))
  | .ldrtImm c u rn rd imm12 => .arm (0x04300000#32 ||| put 32 28 c.bits ||| put 32 23 (flagBits u) ||| put 32 16 (regBits rn) ||| put 32 12 (regBits rd) ||| put 32 0 imm12)
  | .ldrtReg c u rn rd shiftImm st rm => .arm (0x06300000#32 ||| put 32 28 c.bits ||| put 32 23 (flagBits u) ||| put 32 16 (regBits rn) ||| put 32 12 (regBits rd) ||| put 32 7 shiftImm ||| put 32 5 st.bits ||| put 32 0 (regBits rm))
  | .strImmPre c u w rn rd imm12 => .arm (0x05000000#32 ||| put 32 28 c.bits ||| put 32 23 (flagBits u) ||| put 32 21 (flagBits w) ||| put 32 16 (regBits rn) ||| put 32 12 (regBits rd) ||| put 32 0 imm12)
  | .strRegPre c u w rn rd shiftImm st rm => .arm (0x07000000#32 ||| put 32 28 c.bits ||| put 32 23 (flagBits u) ||| put 32 21 (flagBits w) ||| put 32 16 (regBits rn) ||| put 32 12 (regBits rd) ||| put 32 7 shiftImm ||| put 32 5 st.bits ||| put 32 0 (regBits rm))
  | .strImmPost c u rn rd imm12 => .arm (0x04000000#32 ||| put 32 28 c.bits ||| put 32 23 (flagBits u) ||| put 32 16 (regBits rn) ||| put 32 12 (regBits rd) ||| put 32 0 imm12)
  | .strRegPost c u rn rd shiftImm st rm => .arm (0x06000000#32 ||| put 32 28 c.bits ||| put 32 23 (flagBits u) ||| put 32 16 (regBits rn) ||| put 32 12 (regBits rd) ||| put 32 7 shiftImm ||| put 32 5 st.bits ||| put 32 0 (regBits rm))
  | .strtImm c u rn rd imm12 => .arm (0x04200000#32 ||| put 32 28 c.bits ||| put 32 23 (flagBits u) ||| put 32 16 (regBits rn) ||| put 32 12 (regBits rd) ||| put 32 0 imm12)
  | .strtReg c u rn rd shiftImm st rm => .arm (0x06200000#32 ||| put 32 28 c.bits ||| put 32 23 (flagBits u) ||| put 32 16 (regBits rn) ||| put 32 12 (regBits rd) ||| put 32 7 shiftImm ||| put 32 5 st.bits ||| put 32 0 (regBits rm))
  | .ldrbImmPre c u w rn rd imm12 => .arm (0x05500000#32 ||| put 32 28 c.bits ||| put 32 23 (flagBits u) ||| put 32 21 (flagBits w) ||| put 32 16 (regBits rn) ||| put 32 12 (regBits rd) ||| put 32 0 imm12)
  | .ldrbRegPre c u w rn rd shiftImm st rm => .arm (0x07500000#32 ||| put 32 28 c.bits ||| put 32 23 (flagBits u) ||| put 32 21 (flagBits w) ||| put 32 16 (regBits rn) ||| put 32 12 (regBits rd) ||| put 32 7 shiftImm ||| put 32 5 st.bits ||| put 32 0 (regBits rm))
  | .ldrbImmPost c u rn rd imm12 => .arm (0x04500000#32 ||| put 32 28 c.bits ||| put 32 23 (flagBits u) ||| put 32 16 (regBits rn) ||| put 32 12 (regBits rd) ||| put 32 0 imm12)
  | .ldrbRegPost c u rn rd shiftImm st rm => .arm (0x06500000#32 ||| put 32 28 c.bits ||| put 32 23 (flagBits u) ||| put 32 16 (regBits rn) ||| put 32 12 (regBits rd) ||| put 32 7 shiftImm ||| put 32 5 st.bits ||| put 32 0 (regBits rm))
  | .ldrbtImm c u rn rd imm12 => .arm (0x04700000#32 ||| put 32 28 c.bits ||| put 32 23 (flagBits u) ||| put 32 16 (regBits rn) ||| put 32 12 (regBits rd) ||| put 32 0 imm12)
  | .ldrbtReg c u rn rd shiftImm st rm => .arm (0x06700000#32 ||| put 32 28 c.bits ||| put 32 23 (flagBits u) ||| put 32 16 (regBits rn) ||| put 32 12 (regBits rd) ||| put 32 7 shiftImm ||| put 32 5 st.bits ||| put 32 0 (regBits rm))
  | .strbImmPre c u w rn rd imm12 => .arm (0x05400000#32 ||| put 32 28 c.bits ||| put 32 23 (flagBits u) ||| put 32 21 (flagBits w) ||| put 32 16 (regBits rn) ||| put 32 12 (regBits rd) ||| put 32 0 imm12)
  | .strbRegPre c u w rn rd shiftImm st rm => .arm (0x07400000#32 ||| put 32 28 c.bits ||| put 32 23 (flagBits u) ||| put 32 21 (flagBits w) ||| put 32 16 (regBits rn) ||| put 32 12 (regBits rd) ||| put 32 7 shiftImm ||| put 32 5 st.bits ||| put 32 0 (regBits rm))
  | .strbImmPost c u rn rd imm12 => .arm (0x04400000#32 ||| put 32 28 c.bits ||| put 32 23 (flagBits u) ||| put 32 16 (regBits rn) ||| put 32 12 (regBits rd) ||| put 32 0 imm12)
  | .strbRegPost c u rn rd shiftImm st rm => .arm (0x06400000#32 ||| put 32 28 c.bits ||| put 32 23 (flagBits u) ||| put 32 16 (regBits rn) ||| put 32 12 (regBits rd) ||| put 32 7 shiftImm ||| put 32 5 st.bits ||| put 32 0 (regBits rm))
  | .strbtImm c u rn rd imm12 => .arm (0x04600000#32 ||| put 32 28 c.bits ||| put 32 23 (flagBits u) ||| put 32 16 (regBits rn) ||| put 32 12 (regBits rd) ||| put 32 0 imm12)
  | .strbtReg c u rn rd shiftImm st rm => .arm (0x06600000#32 ||| put 32 28 c.bits ||| put 32 23 (flagBits u) ||| put 32 16 (regBits rn) ||| put 32 12 (regBits rd) ||| put 32 7 shiftImm ||| put 32 5 st.bits ||| put 32 0 (regBits rm))
  | .strhImm c p u w rn rd immHi immLo => .arm (0x004000B0#32 ||| put 32 28 c.bits ||| put 32 24 (flagBits p) ||| put 32 23 (flagBits u) ||| put 32 21 (flagBits w) ||| put 32 16 (regBits rn) ||| put 32 12 (regBits rd) ||| put 32 8 immHi ||| put 32 0 immLo)
  | .strhReg c p u w rn rd rm => .arm (0x000000B0#32 ||| put 32 28 c.bits ||| put 32 24 (flagBits p) ||| put 32 23 (flagBits u) ||| put 32 21 (flagBits w) ||| put 32 16 (regBits rn) ||| put 32 12 (regBits rd) ||| put 32 0 (regBits rm))
  | .ldrhImm c p u w rn rd immHi immLo => .arm (0x005000B0#32 ||| put 32 28 c.bits ||| put 32 24 (flagBits p) ||| put 32 23 (flagBits u) ||| put 32 21 (flagBits w) ||| put 32 16 (regBits rn) ||| put 32 12 (regBits rd) ||| put 32 8 immHi ||| put 32 0 immLo)
  | .ldrhReg c p u w rn rd rm => .arm (0x001000B0#32 ||| put 32 28 c.bits ||| put 32 24 (flagBits p) ||| put 32 23 (flagBits u) ||| put 32 21 (flagBits w) ||| put 32 16 (regBits rn) ||| put 32 12 (regBits rd) ||| put 32 0 (regBits rm))
  | .ldrsbImm c p u w rn rd immHi immLo => .arm (0x005000D0#32 ||| put 32 28 c.bits ||| put 32 24 (flagBits p) ||| put 32 23 (flagBits u) ||| put 32 21 (flagBits w) ||| put 32 16 (regBits rn) ||| put 32 12 (regBits rd) ||| put 32 8 immHi ||| put 32 0 immLo)
  | .ldrsbReg c p u w rn rd rm => .arm (0x001000D0#32 ||| put 32 28 c.bits ||| put 32 24 (flagBits p) ||| put 32 23 (flagBits u) ||| put 32 21 (flagBits w) ||| put 32 16 (regBits rn) ||| put 32 12 (regBits rd) ||| put 32 0 (regBits rm))
  | .ldrshImm c p u w rn rd immHi immLo => .arm (0x005000F0#32 ||| put 32 28 c.bits ||| put 32 24 (flagBits p) ||| put 32 23 (flagBits u) ||| put 32 21 (flagBits w) ||| put 32 16 (regBits rn) ||| put 32 12 (regBits rd) ||| put 32 8 immHi ||| put 32 0 immLo)
  | .ldrshReg c p u w rn rd rm => .arm (0x001000F0#32 ||| put 32 28 c.bits ||| put 32 24 (flagBits p) ||| put 32 23 (flagBits u) ||| put 32 21 (flagBits w) ||| put 32 16 (regBits rn) ||| put 32 12 (regBits rd) ||| put 32 0 (regBits rm))
  | .stmia c w rn list => .arm (0x08800000#32 ||| put 32 28 c.bits ||| put 32 21 (flagBits w) ||| put 32 16 (regBits rn) ||| put 32 0 list)
  | .stmib c w rn list => .arm (0x09800000#32 ||| put 32 28 c.bits ||| put 32 21 (flagBits w) ||| put 32 16 (regBits rn) ||| put 32 0 list)
  | .stmda c w rn list => .arm (0x08000000#32 ||| put 32 28 c.bits ||| put 32 21 (flagBits w) ||| put 32 16 (regBits rn) ||| put 32 0 list)
  | .stmdb c w rn list => .arm (0x09000000#32 ||| put 32 28 c.bits ||| put 32 21 (flagBits w) ||| put 32 16 (regBits rn) ||| put 32 0 list)
  | .ldmia c w rn list => .arm (0x08900000#32 ||| put 32 28 c.bits ||| put 32 21 (flagBits w) ||| put 32 16 (regBits rn) ||| put 32 0 list)
  | .ldmib c w rn list => .arm (0x09900000#32 ||| put 32 28 c.bits ||| put 32 21 (flagBits w) ||| put 32 16 (regBits rn) ||| put 32 0 list)
  | .ldmda c w rn list => .arm (0x08100000#32 ||| put 32 28 c.bits ||| put 32 21 (flagBits w) ||| put 32 16 (regBits rn) ||| put 32 0 list)
  | .ldmdb c w rn list => .arm (0x09100000#32 ||| put 32 28 c.bits ||| put 32 21 (flagBits w) ||| put 32 16 (regBits rn) ||| put 32 0 list)
  | .stmiaUsr c w rn list => .arm (0x08C00000#32 ||| put 32 28 c.bits ||| put 32 21 (flagBits w) ||| put 32 16 (regBits rn) ||| put 32 0 list)
  | .stmibUsr c w rn list => .arm (0x09C00000#32 ||| put 32 28 c.bits ||| put 32 21 (flagBits w) ||| put 32 16 (regBits rn) ||| put 32 0 list)
  | .stmdaUsr c w rn list => .arm (0x08400000#32 ||| put 32 28 c.bits ||| put 32 21 (flagBits w) ||| put 32 16 (regBits rn) ||| put 32 0 list)
  | .stmdbUsr c w rn list => .arm (0x09400000#32 ||| put 32 28 c.bits ||| put 32 21 (flagBits w) ||| put 32 16 (regBits rn) ||| put 32 0 list)
  | .ldmiaRst c w rn list => .arm (0x08D00000#32 ||| put 32 28 c.bits ||| put 32 21 (flagBits w) ||| put 32 16 (regBits rn) ||| put 32 0 list)
  | .ldmibRst c w rn list => .arm (0x09D00000#32 ||| put 32 28 c.bits ||| put 32 21 (flagBits w) ||| put 32 16 (regBits rn) ||| put 32 0 list)
  | .ldmdaRst c w rn list => .arm (0x08500000#32 ||| put 32 28 c.bits ||| put 32 21 (flagBits w) ||| put 32 16 (regBits rn) ||| put 32 0 list)
  | .ldmdbRst c w rn list => .arm (0x09500000#32 ||| put 32 28 c.bits ||| put 32 21 (flagBits w) ||| put 32 16 (regBits rn) ||| put 32 0 list)
  | .swi c comment => .arm (0x0F000000#32 ||| put 32 28 c.bits ||| put 32 0 comment)
  | .lslImmT offset5 rs rd => .thumb (0x0000#16 ||| put 16 6 offset5 ||| put 16 3 (lowBits rs) ||| put 16 0 (lowBits rd))
  | .lsrImmT offset5 rs rd => .thumb (0x0800#16 ||| put 16 6 offset5 ||| put 16 3 (lowBits rs) ||| put 16 0 (lowBits rd))
  | .asrImmT offset5 rs rd => .thumb (0x1000#16 ||| put 16 6 offset5 ||| put 16 3 (lowBits rs) ||| put 16 0 (lowBits rd))
  | .addRegT rn rs rd => .thumb (0x1800#16 ||| put 16 6 (lowBits rn) ||| put 16 3 (lowBits rs) ||| put 16 0 (lowBits rd))
  | .subRegT rn rs rd => .thumb (0x1A00#16 ||| put 16 6 (lowBits rn) ||| put 16 3 (lowBits rs) ||| put 16 0 (lowBits rd))
  | .addImm3T imm3 rs rd => .thumb (0x1C00#16 ||| put 16 6 imm3 ||| put 16 3 (lowBits rs) ||| put 16 0 (lowBits rd))
  | .subImm3T imm3 rs rd => .thumb (0x1E00#16 ||| put 16 6 imm3 ||| put 16 3 (lowBits rs) ||| put 16 0 (lowBits rd))
  | .movImmT rd imm8 => .thumb (0x2000#16 ||| put 16 8 (lowBits rd) ||| put 16 0 imm8)
  | .cmpImmT rd imm8 => .thumb (0x2800#16 ||| put 16 8 (lowBits rd) ||| put 16 0 imm8)
  | .addImm8T rd imm8 => .thumb (0x3000#16 ||| put 16 8 (lowBits rd) ||| put 16 0 imm8)
  | .subImm8T rd imm8 => .thumb (0x3800#16 ||| put 16 8 (lowBits rd) ||| put 16 0 imm8)
  | .andT rs rd => .thumb (0x4000#16 ||| put 16 3 (lowBits rs) ||| put 16 0 (lowBits rd))
  | .eorT rs rd => .thumb (0x4040#16 ||| put 16 3 (lowBits rs) ||| put 16 0 (lowBits rd))
  | .lslRegT rs rd => .thumb (0x4080#16 ||| put 16 3 (lowBits rs) ||| put 16 0 (lowBits rd))
  | .lsrRegT rs rd => .thumb (0x40C0#16 ||| put 16 3 (lowBits rs) ||| put 16 0 (lowBits rd))
  | .asrRegT rs rd => .thumb (0x4100#16 ||| put 16 3 (lowBits rs) ||| put 16 0 (lowBits rd))
  | .adcT rs rd => .thumb (0x4140#16 ||| put 16 3 (lowBits rs) ||| put 16 0 (lowBits rd))
  | .sbcT rs rd => .thumb (0x4180#16 ||| put 16 3 (lowBits rs) ||| put 16 0 (lowBits rd))
  | .rorT rs rd => .thumb (0x41C0#16 ||| put 16 3 (lowBits rs) ||| put 16 0 (lowBits rd))
  | .tstT rs rd => .thumb (0x4200#16 ||| put 16 3 (lowBits rs) ||| put 16 0 (lowBits rd))
  | .negT rs rd => .thumb (0x4240#16 ||| put 16 3 (lowBits rs) ||| put 16 0 (lowBits rd))
  | .cmpRegT rs rd => .thumb (0x4280#16 ||| put 16 3 (lowBits rs) ||| put 16 0 (lowBits rd))
  | .cmnT rs rd => .thumb (0x42C0#16 ||| put 16 3 (lowBits rs) ||| put 16 0 (lowBits rd))
  | .orrT rs rd => .thumb (0x4300#16 ||| put 16 3 (lowBits rs) ||| put 16 0 (lowBits rd))
  | .mulT rs rd => .thumb (0x4340#16 ||| put 16 3 (lowBits rs) ||| put 16 0 (lowBits rd))
  | .bicT rs rd => .thumb (0x4380#16 ||| put 16 3 (lowBits rs) ||| put 16 0 (lowBits rd))
  | .mvnT rs rd => .thumb (0x43C0#16 ||| put 16 3 (lowBits rs) ||| put 16 0 (lowBits rd))
  | .addHiT h1 h2 rs rd => .thumb (0x4400#16 ||| put 16 7 (flagBits h1) ||| put 16 6 (flagBits h2) ||| put 16 3 (lowBits rs) ||| put 16 0 (lowBits rd))
  | .cmpHiT h1 h2 rs rd => .thumb (0x4500#16 ||| put 16 7 (flagBits h1) ||| put 16 6 (flagBits h2) ||| put 16 3 (lowBits rs) ||| put 16 0 (lowBits rd))
  | .movHiT h1 h2 rs rd => .thumb (0x4600#16 ||| put 16 7 (flagBits h1) ||| put 16 6 (flagBits h2) ||| put 16 3 (lowBits rs) ||| put 16 0 (lowBits rd))
  | .bxT h2 rs => .thumb (0x4700#16 ||| put 16 6 (flagBits h2) ||| put 16 3 (lowBits rs))
  | .bxH1T h2 rs => .thumb (0x4780#16 ||| put 16 6 (flagBits h2) ||| put 16 3 (lowBits rs))
  | .ldrPcT rd word8 => .thumb (0x4800#16 ||| put 16 8 (lowBits rd) ||| put 16 0 word8)
  | .strRegT ro rb rd => .thumb (0x5000#16 ||| put 16 6 (lowBits ro) ||| put 16 3 (lowBits rb) ||| put 16 0 (lowBits rd))
  | .strbRegT ro rb rd => .thumb (0x5400#16 ||| put 16 6 (lowBits ro) ||| put 16 3 (lowBits rb) ||| put 16 0 (lowBits rd))
  | .ldrRegT ro rb rd => .thumb (0x5800#16 ||| put 16 6 (lowBits ro) ||| put 16 3 (lowBits rb) ||| put 16 0 (lowBits rd))
  | .ldrbRegT ro rb rd => .thumb (0x5C00#16 ||| put 16 6 (lowBits ro) ||| put 16 3 (lowBits rb) ||| put 16 0 (lowBits rd))
  | .strhRegT ro rb rd => .thumb (0x5200#16 ||| put 16 6 (lowBits ro) ||| put 16 3 (lowBits rb) ||| put 16 0 (lowBits rd))
  | .ldsbRegT ro rb rd => .thumb (0x5600#16 ||| put 16 6 (lowBits ro) ||| put 16 3 (lowBits rb) ||| put 16 0 (lowBits rd))
  | .ldrhRegT ro rb rd => .thumb (0x5A00#16 ||| put 16 6 (lowBits ro) ||| put 16 3 (lowBits rb) ||| put 16 0 (lowBits rd))
  | .ldshRegT ro rb rd => .thumb (0x5E00#16 ||| put 16 6 (lowBits ro) ||| put 16 3 (lowBits rb) ||| put 16 0 (lowBits rd))
  | .strImmT offset5 rb rd => .thumb (0x6000#16 ||| put 16 6 offset5 ||| put 16 3 (lowBits rb) ||| put 16 0 (lowBits rd))
  | .ldrImmT offset5 rb rd => .thumb (0x6800#16 ||| put 16 6 offset5 ||| put 16 3 (lowBits rb) ||| put 16 0 (lowBits rd))
  | .strbImmT offset5 rb rd => .thumb (0x7000#16 ||| put 16 6 offset5 ||| put 16 3 (lowBits rb) ||| put 16 0 (lowBits rd))
  | .ldrbImmT offset5 rb rd => .thumb (0x7800#16 ||| put 16 6 offset5 ||| put 16 3 (lowBits rb) ||| put 16 0 (lowBits rd))
  | .strhImmT offset5 rb rd => .thumb (0x8000#16 ||| put 16 6 offset5 ||| put 16 3 (lowBits rb) ||| put 16 0 (lowBits rd))
  | .ldrhImmT offset5 rb rd => .thumb (0x8800#16 ||| put 16 6 offset5 ||| put 16 3 (lowBits rb) ||| put 16 0 (lowBits rd))
  | .strSpT rd word8 => .thumb (0x9000#16 ||| put 16 8 (lowBits rd) ||| put 16 0 word8)
  | .ldrSpT rd word8 => .thumb (0x9800#16 ||| put 16 8 (lowBits rd) ||| put 16 0 word8)
  | .addPcT rd word8 => .thumb (0xA000#16 ||| put 16 8 (lowBits rd) ||| put 16 0 word8)
  | .addSpT rd word8 => .thumb (0xA800#16 ||| put 16 8 (lowBits rd) ||| put 16 0 word8)
  | .addSpimmT sword7 => .thumb (0xB000#16 ||| put 16 0 sword7)
  | .subSpimmT sword7 => .thumb (0xB080#16 ||| put 16 0 sword7)
  | .pushT r list => .thumb (0xB400#16 ||| put 16 8 (flagBits r) ||| put 16 0 list)
  | .popT r list => .thumb (0xBC00#16 ||| put 16 8 (flagBits r) ||| put 16 0 list)
  | .stmiaT rb list => .thumb (0xC000#16 ||| put 16 8 (lowBits rb) ||| put 16 0 list)
  | .ldmiaT rb list => .thumb (0xC800#16 ||| put 16 8 (lowBits rb) ||| put 16 0 list)
  | .beqT soffset8 => .thumb (0xD000#16 ||| put 16 0 soffset8)
  | .bneT soffset8 => .thumb (0xD100#16 ||| put 16 0 soffset8)
  | .bcsT soffset8 => .thumb (0xD200#16 ||| put 16 0 soffset8)
  | .bccT soffset8 => .thumb (0xD300#16 ||| put 16 0 soffset8)
  | .bmiT soffset8 => .thumb (0xD400#16 ||| put 16 0 soffset8)
  | .bplT soffset8 => .thumb (0xD500#16 ||| put 16 0 soffset8)
  | .bvsT soffset8 => .thumb (0xD600#16 ||| put 16 0 soffset8)
  | .bvcT soffset8 => .thumb (0xD700#16 ||| put 16 0 soffset8)
  | .bhiT soffset8 => .thumb (0xD800#16 ||| put 16 0 soffset8)
  | .blsT soffset8 => .thumb (0xD900#16 ||| put 16 0 soffset8)
  | .bgeT soffset8 => .thumb (0xDA00#16 ||| put 16 0 soffset8)
  | .bltT soffset8 => .thumb (0xDB00#16 ||| put 16 0 soffset8)
  | .bgtT soffset8 => .thumb (0xDC00#16 ||| put 16 0 soffset8)
  | .bleT soffset8 => .thumb (0xDD00#16 ||| put 16 0 soffset8)
  | .swiT value8 => .thumb (0xDF00#16 ||| put 16 0 value8)
  | .bT offset11 => .thumb (0xE000#16 ||| put 16 0 offset11)
  | .blHiT offset11 => .thumb (0xF000#16 ||| put 16 0 offset11)
  | .blLoT offset11 => .thumb (0xF800#16 ||| put 16 0 offset11)

end Sys2Proof
end

