-- ==== Sys2Proof/Machine/Modes.lean ====
section
/-! DEFINITION. Machine/Modes.lean: the mode encodings (10_state.md R23), the banks, and which physical register a register
number names in a bank (R22, R24). -/
namespace Sys2Proof.Machine
open Sys2Proof

/-- The 5-bit encoding of a mode in `CPSR.M` (R23). -/
def modeBits : Mode → BitVec 5
  | .usr => 0x10#5 | .fiq => 0x11#5 | .irq => 0x12#5 | .svc => 0x13#5 | .abt => 0x17#5 | .und => 0x1B#5 | .sys => 0x1F#5

/-- The mode of a 5-bit field; none for an illegal value (R23, R32). -/
def modeOf (b : BitVec 5) : Option Mode :=
  match b.toNat with
  | 0x10 => some .usr
  | 0x11 => some .fiq
  | 0x12 => some .irq
  | 0x13 => some .svc
  | 0x17 => some .abt
  | 0x1B => some .und
  | 0x1F => some .sys
  | _ => none

/-- The register banks: User and System share one (R24). -/
inductive Bank where
  | usr | fiq | irq | svc | abt | und
deriving DecidableEq, Repr

/-- The bank a mode sees (R24). -/
def bankOf : Mode → Bank
  | .usr => .usr | .sys => .usr | .fiq => .fiq | .irq => .irq | .svc => .svc | .abt => .abt | .und => .und

/-- Which of the five SPSRs a mode has: User and System have none (R23, R33). -/
def spsrOf : Mode → Option (Fin 5)
  | .fiq => some 0 | .irq => some 1 | .svc => some 2 | .abt => some 3 | .und => some 4 | .usr => none | .sys => none

/-- A bank's number, for the layout of `State.regs`. -/
def bankNumber : Bank → Fin 6
  | .usr => 0 | .fiq => 1 | .irq => 2 | .svc => 3 | .abt => 4 | .und => 5

/-- The 30 physical general registers (R22). -/
inductive PhysReg where
  /-- R0 to R7, shared by all modes. -/
  | low (k : Fin 8)
  /-- R8_usr to R12_usr, shared by every mode but FIQ. -/
  | mid (k : Fin 5)
  /-- R8_fiq to R12_fiq. -/
  | midFiq (k : Fin 5)
  /-- R13 of a bank. -/
  | sp (b : Bank)
  /-- R14 of a bank. -/
  | lr (b : Bank)
deriving DecidableEq, Repr

/-- Where a physical register stands in `State.regs`. -/
def physIndex : PhysReg → Fin 30
  | .low k => ⟨k.val, by omega⟩
  | .mid k => ⟨8 + k.val, by omega⟩
  | .midFiq k => ⟨13 + k.val, by omega⟩
  | .sp b => ⟨18 + (bankNumber b).val, by omega⟩
  | .lr b => ⟨24 + (bankNumber b).val, by omega⟩

/-- The register view (R24): the physical register that `R[r]` names in a bank; none for R15, which is `pc` (R26). -/
def physReg (b : Bank) (r : Reg) : Option PhysReg :=
  if h : r.val < 8 then some (.low ⟨r.val, h⟩)
  else if h : r.val < 13 then
    if b = .fiq then some (.midFiq ⟨r.val - 8, by omega⟩) else some (.mid ⟨r.val - 8, by omega⟩)
  else if r.val = 13 then some (.sp b)
  else if r.val = 14 then some (.lr b)
  else none

end Sys2Proof.Machine
end

