-- ==== Sys2Proof/Machine/State.lean ====
section
/-! DEFINITION. Machine/State.lean: the state (10_state.md R21, R22, R26, R30, R33, R40, R43, R44), why a step can stop, and the
state at creation (70_reset_and_hazards.md R430). -/
namespace Sys2Proof.Machine
open Sys2Proof

/-- The width of a bus access, 1, 2 or 4 bytes (20_memory.md R61, R80). -/
inductive Width where
  | byte | half | word
deriving DecidableEq, Repr

/-- A request channel: an entry of the registry (10_state.md R44). Its handler is the device oracle (`Config.deviceAnswer`). -/
structure Channel where
  name : String
  id : Nat
  base : Nat
  range : Nat
deriving DecidableEq, Repr

/-- An access the bus handed to a channel: the channel's id, the address relative to its base, the width and the value (R43). -/
inductive Event where
  | channelRead (id rel : Nat) (width : Width) (value : Word)
  | channelWrite (id rel : Nat) (width : Width) (value : Word)
deriving DecidableEq, Repr

/-- The tags of `Fault(Unpredictable(tag))`, in the order of 60_exceptions.md R405. -/
inductive Tag where
  | unalignedPcWrite | bxUnalignedArm | popPcInterwork | blxPc | dpRegShiftPc
  | mulRegs | mulLongRegs | mulHalfPc | mrsPc | msrPc
  | sdtPcOffset | sdtPcWriteback | sdtBaseIsRd | ldrbPc | strbPc
  | hdtPcOffset | hdtPostWriteback | hdtPcWriteback | hdtBaseIsRd | hdtLoadPc | strhPc
  | swpRegs | emptyList | blockPcBase | stmWritebackBase | ldmWritebackBase
  | userBankInUserMode | userBankWriteback | thumbMulRegs | hiRegLowLow | thumbBxH1
deriving DecidableEq, Repr

/-- The two encodings the spec refuses (30_encoding.md R135). -/
inductive Refused where
  | smlaxy | smulwy
deriving DecidableEq, Repr

/-- Why the machine stops (60_exceptions.md R402). A fault is terminal and keeps nothing of the step. Each is safe: where the
hardware goes on, the model only fails to prove. -/
inductive Fault where
  /-- An UNPREDICTABLE form (R405): raised by the rule of each tag. Safe. -/
  | unpredictable (tag : Tag)
  /-- A CPSR write whose mode field is not one of the seven: raised by `State.writeCpsr` (10_state.md R35). Safe. -/
  | illegalMode (m : BitVec 5)
  /-- An SPSR access in User or System mode: raised by MRS, MSR, the CPSR restore and LDM with S (R33). Safe. -/
  | noSpsr
  /-- A misaligned data access that the policy `MISALIGN` refuses: raised by `State.dataRead`, `State.dataWrite`,
  `State.blockStart` (20_memory.md R70, R73). Safe. -/
  | misaligned (addr : Word) (width : Width)
  /-- A fetch at a misaligned pc: raised by `State.fetch` (R68). Safe. -/
  | misalignedFetch (pc : Word)
  /-- An access that starts inside internal memory and ends beyond it: raised by `State.memRead` and `State.memWrite` (R63). Safe. -/
  | straddle (addr : Word) (width : Width)
  /-- A refused halfword multiply: raised by SMLAxy and SMULWy (43_arm_multiply.md R237, R240). Safe. -/
  | unmodelled (what : Refused)
  /-- The Div service with a zero divisor: raised by `serviceDiv` (47_swi_and_undefined.md R304). Safe. -/
  | divideByZero
  /-- A step of a halted state, which has none (10_state.md R40): raised by `step`. Safe. -/
  | halted
deriving DecidableEq, Repr

/-- Why the model gives no meaning. -/
inductive Refusal where
  /-- An instruction that has no meaning yet: raised by `exec`'s arm, by no meaning. Safe. -/
  | notModelled (mnemonic : String)
deriving DecidableEq, Repr

/-- Internal memory (20_memory.md R62): the listed bytes, by rising address, none equal to what an unlisted address reads as. -/
abbrev Memory := List Host.Cell

/-- What an unlisted address of internal memory reads as: memory is zero at creation (70_reset_and_hazards.md R430). -/
def Memory.unlisted : Byte := 0

/-- The canonical form: addresses strictly rising, no byte listed that an unlisted address would read as. -/
abbrev Memory.wf (m : Memory) : Prop :=
  m.Pairwise (fun x y => x.1 < y.1) ∧ ∀ x ∈ m, x.2 ≠ Memory.unlisted

/-- The state of the block (10_state.md R21). -/
structure State where
  /-- The parameters (00_scope.md R9), which no step changes (R10). -/
  cfg : Config
  /-- The 30 general registers (R22), laid out by `physIndex`. -/
  regs : Vector Word 30
  /-- The program counter (R26). -/
  pc : Word
  /-- The current status register (R30). -/
  cpsr : Word
  /-- SPSR_fiq, SPSR_irq, SPSR_svc, SPSR_abt, SPSR_und (R33). -/
  spsr : Vector Word 5
  /-- Internal memory (20_memory.md R62). -/
  mem : Memory
  /-- The request-channel registry, in registration order (R44). -/
  channels : List Channel
  /-- The history of channel accesses, oldest first (R43). -/
  events : List Event
  /-- The EXIT service has run (R40). -/
  halted : Bool
  /-- The model's own counter: how many answers the device oracle has given (log 6). -/
  draws : Nat
deriving DecidableEq, Repr

/-- Creation (70_reset_and_hazards.md R430, R431): everything zero but the R13 of the initial mode, `CPSR.M` and `CPSR.E`. -/
def State.create (k : Config) : State where
  cfg := k
  regs := (Vector.replicate 30 0).set (physIndex (.sp (bankOf k.initMode))) k.stackBase (physIndex _).isLt
  pc := 0
  cpsr := put 32 0 (modeBits k.initMode) ||| put 32 9 (flagBits k.initE)
  spsr := Vector.replicate 5 0
  mem := []
  channels := []
  events := []
  halted := false
  draws := 0

/-- The machine right after creation, under the configuration `Config.reset` (log 4). -/
def State.reset : State := State.create Config.reset

end Sys2Proof.Machine
end

