-- ==== Sys2Proof/Machine/Ops.lean ====
section
/-! DEFINITION. Machine/Ops.lean: the named operations over the state: status bits, registers, the program counter, internal
memory, the bus with its channels, data accesses, status-register writes, program-counter writes.

The hardware takes no exception and has no exception entry (60_exceptions.md R400, R404): the return from a handler is
`State.restoreCpsr` with `State.writePcAfterRestore` (R408). -/
namespace Sys2Proof.Machine
open Sys2Proof

/-- What an instruction gives: a value, or the fault that ends the step (00_scope.md R14, R15). -/
abbrev Result (α : Type) := Except Fault α

/-- The step ends in the fault when `bad` holds (R15). -/
def faultIf (bad : Bool) (f : Fault) : Result Unit :=
  if bad then .error f else .ok ()

/-- The outcome of a step from the result of its instruction (R14). -/
def finish : Result State → Host.Outcome State Fault Refusal
  | .ok t => .next t
  | .error f => .fault f

/-! ### The status register (10_state.md R30) -/

def State.flagN (s : State) : Bool := s.cpsr.getLsbD 31
def State.flagZ (s : State) : Bool := s.cpsr.getLsbD 30
def State.flagC (s : State) : Bool := s.cpsr.getLsbD 29
def State.flagV (s : State) : Bool := s.cpsr.getLsbD 28
/-- The sticky saturation flag. -/
def State.flagQ (s : State) : Bool := s.cpsr.getLsbD 27
/-- `CPSR.E`: true is big-endian (R31, 20_memory.md R64). -/
def State.bigEndian (s : State) : Bool := s.cpsr.getLsbD 9
/-- `CPSR.T`: true is Thumb state (R31). -/
def State.thumb (s : State) : Bool := s.cpsr.getLsbD 5
/-- `CPSR.M`. -/
def State.modeField (s : State) : BitVec 5 := get s.cpsr 0 5
/-- The current mode; none for an illegal field, which no run reaches (R32). -/
def State.mode? (s : State) : Option Mode := modeOf s.modeField
/-- The bank of the current mode. An illegal mode field sees the User bank: DESIGN CHOICE, no run reaches it (log 7). -/
def State.bank (s : State) : Bank :=
  match s.mode? with
  | some m => bankOf m
  | none => .usr
/-- User mode, the unprivileged one (R39). -/
def State.isUser (s : State) : Bool := s.mode? == some .usr
/-- The SPSR of the current mode; none in User and System mode (R33). -/
def State.spsr? (s : State) : Option (Fin 5) := s.mode?.bind spsrOf

/-- Bit `k` of a status word set to `b`. -/
def setBit (v : Word) (k : Nat) (b : Bool) : Word :=
  if b then v ||| put 32 k 1#1 else v &&& ~~~(put 32 k 1#1)

def State.setN (s : State) (b : Bool) : State := { s with cpsr := setBit s.cpsr 31 b }
def State.setZ (s : State) (b : Bool) : State := { s with cpsr := setBit s.cpsr 30 b }
def State.setC (s : State) (b : Bool) : State := { s with cpsr := setBit s.cpsr 29 b }
def State.setV (s : State) (b : Bool) : State := { s with cpsr := setBit s.cpsr 28 b }
def State.setQ (s : State) (b : Bool) : State := { s with cpsr := setBit s.cpsr 27 b }
def State.setThumb (s : State) (b : Bool) : State := { s with cpsr := setBit s.cpsr 5 b }
def State.setBigEndian (s : State) (b : Bool) : State := { s with cpsr := setBit s.cpsr 9 b }

/-! ### The program counter (R26 to R29) -/

/-- The fixed width of the state: 4 bytes in ARM state, 2 in Thumb state (40_core_condition_shifter.md R143). -/
def State.width (s : State) : Word := if s.thumb then 2 else 4

/-- The fixed-width advance (R143), modulo 2^32 (R29). A meaning starts from the advanced state and a program-counter write
overrides it, which is R141's `pcWritten`. -/
def State.advance (s : State) : State := { s with pc := s.pc + s.width }

/-- R15 read as an operand: `pc + 8` in ARM state, `pc + 4` in Thumb state (R27). -/
def State.pcRead (s : State) : Word := s.pc + (if s.thumb then 4 else 8)

/-- R15 stored by STR and STM: `pc + STORED_PC_OFFSET` (45_arm_load_store.md R262, D22). -/
def State.pcStored (s : State) : Word :=
  s.pc + (match s.cfg.storedPc with | .plus8 => 8 | .plus12 => 12)

/-- UNDEFINED execution: the advance and nothing else (47_swi_and_undefined.md R310). -/
def State.undefined (s : State) : State := s.advance

/-! ### The general registers (R22, R24, R25) -/

def State.readPhys (s : State) (p : PhysReg) : Word := s.regs[physIndex p]

def State.writePhys (s : State) (p : PhysReg) (v : Word) : State :=
  { s with regs := s.regs.set (physIndex p) v (physIndex p).isLt }

/-- `R[r]` read in the view of a bank; R15 reads as R27 says. -/
def State.readIn (s : State) (b : Bank) (r : Reg) : Word :=
  match physReg b r with
  | some p => s.readPhys p
  | none => s.pcRead

/-- `R[r]`, in the view of the current mode (R24). -/
def State.readReg (s : State) (r : Reg) : Word := s.readIn s.bank r

/-- `UserR[r]`, in the User view whatever the mode (R24). -/
def State.readUser (s : State) (r : Reg) : Word := s.readIn .usr r

/-- `R[r] <- v` for R0 to R14. R15 is written by the program-counter writes below and by nothing else (R28): here it is left alone. -/
def State.writeReg (s : State) (r : Reg) (v : Word) : State :=
  match physReg s.bank r with
  | some p => s.writePhys p v
  | none => s

/-- The registers of a list written in its order. R15 in the list is not written here. -/
def State.writeRegs (s : State) : List (Reg × Word) → State
  | [] => s
  | (r, v) :: rest => (s.writeReg r v).writeRegs rest

/-- The base written back, where the instruction writes it back. -/
def State.writeBack (s : State) (rn : Reg) : Option Word → State
  | some v => s.writeReg rn v
  | none => s

/-! ### Internal memory (20_memory.md R62) -/

def Memory.read : Memory → Nat → Byte
  | [], _ => Memory.unlisted
  | (x, b) :: rest, a => if x = a then b else Memory.read rest a

/-- A byte written, keeping the canonical form: the byte an unlisted address reads as is not listed. -/
def Memory.write : Memory → Nat → Byte → Memory
  | [], a, b => if b = Memory.unlisted then [] else [(a, b)]
  | (x, y) :: rest, a, b =>
    if a < x then (if b = Memory.unlisted then (x, y) :: rest else (a, b) :: (x, y) :: rest)
    else if a = x then (if b = Memory.unlisted then rest else (a, b) :: rest)
    else (x, y) :: Memory.write rest a b

/-- The `n` bytes from address `a` up. -/
def Memory.readBytes (m : Memory) (a : Nat) : Nat → List Byte
  | 0 => []
  | n + 1 => Memory.read m a :: Memory.readBytes m (a + 1) n

/-- Bytes written from address `a` up. -/
def Memory.writeBytes (m : Memory) (a : Nat) : List Byte → Memory
  | [] => m
  | b :: bs => Memory.writeBytes (Memory.write m a b) (a + 1) bs

/-! ### The bus (20_memory.md R61 to R64, R74 to R78) -/

/-- The bytes of a width (R61). -/
def widthBytes : Width → Nat
  | .byte => 1 | .half => 2 | .word => 4

/-- The value of a width, zero-extended (R76). -/
def truncate (w : Width) (v : Word) : Word :=
  match w with
  | .byte => (v.setWidth 8).setWidth 32
  | .half => (v.setWidth 16).setWidth 32
  | .word => v

/-- The channel's range covers the address, computed exactly (R74). -/
def Channel.covers (c : Channel) (a : Nat) : Bool := c.base ≤ a && a < c.base + c.range

/-- The channels that match an address, in registration order (R74). -/
def State.matching (s : State) (a : Word) : List Channel := s.channels.filter fun c => c.covers a.toNat

/-- The oracle's next answer, as a value of the width (R76). -/
def State.answer (s : State) (w : Width) : Word := truncate w (Config.deviceAnswer s.draws)

/-- Every channel of the list read once, in order: one answer drawn and one event recorded for each (R76). -/
def State.readChannels (a : Word) (w : Width) : List Channel → State → State
  | [], s => s
  | c :: cs, s =>
    State.readChannels a w cs
      { s with events := s.events ++ [.channelRead c.id (a.toNat - c.base) w (s.answer w)], draws := s.draws + 1 }

/-- Every channel of the list written once, in order: one event recorded for each (R75). -/
def State.writeChannels (a : Word) (w : Width) (v : Word) : List Channel → State → State
  | [], s => s
  | c :: cs, s =>
    State.writeChannels a w v cs
      { s with events := s.events ++ [.channelWrite c.id (a.toNat - c.base) w (truncate w v)] }

/-- A read at or above `MEM_SIZE`: the first matching channel's answer (R76), or 0 where none matches (R77). -/
def State.channelRead (s : State) (a : Word) (w : Width) : Word × State :=
  match s.matching a with
  | [] => (0, s)
  | c :: cs => (s.answer w, State.readChannels a w (c :: cs) s)

/-- A write at or above `MEM_SIZE` (R75, R77). -/
def State.channelWrite (s : State) (a : Word) (w : Width) (v : Word) : State :=
  State.writeChannels a w v (s.matching a) s

/-- The access lies in internal memory (R63). -/
def State.internal (s : State) (a : Word) (w : Width) : Bool := a.toNat + widthBytes w ≤ s.cfg.memSize

/-- The access starts at or above `MEM_SIZE` (R63). -/
def State.external (s : State) (a : Word) : Bool := s.cfg.memSize ≤ a.toNat

/-- `MemRead` (R61, R63, R64). -/
def State.memRead (s : State) (a : Word) (w : Width) : Result (Word × State) :=
  if s.internal a w then .ok (assemble s.bigEndian (s.mem.readBytes a.toNat (widthBytes w)), s)
  else if s.external a then .ok (s.channelRead a w)
  else .error (.straddle a w)

/-- `MemWrite` (R61, R63, R64). -/
def State.memWrite (s : State) (a : Word) (w : Width) (v : Word) : Result State :=
  if s.internal a w then
    .ok { s with mem := s.mem.writeBytes a.toNat (disassemble s.bigEndian (widthBytes w) v) }
  else if s.external a then .ok (s.channelWrite a w v)
  else .error (.straddle a w)

/-! ### Fetch (R68) -/

/-- `Fetch`: the instruction at pc in the current state and byte order. -/
def State.fetch (s : State) : Result (Code × State) :=
  if s.thumb then do
    faultIf (s.pc.getLsbD 0) (.misalignedFetch s.pc)
    let (v, t) ← s.memRead s.pc .half
    pure (.thumb (v.setWidth 16), t)
  else do
    faultIf (get s.pc 0 2 != 0) (.misalignedFetch s.pc)
    let (v, t) ← s.memRead s.pc .word
    pure (.arm v, t)

/-! ### Data accesses (R69 to R73, R80) -/

/-- What a load does with the value of the bus (R80). -/
inductive LoadKind where
  | word | half | signedHalf | byte | signedByte
deriving DecidableEq, Repr

/-- The bus width of a load (R80). -/
def loadWidth : LoadKind → Width
  | .word => .word | .half => .half | .signedHalf => .half | .byte => .byte | .signedByte => .byte

/-- The extension of a load to 32 bits (R80). -/
def extend (k : LoadKind) (v : Word) : Word :=
  match k with
  | .word => v
  | .half => (v.setWidth 16).setWidth 32
  | .signedHalf => (v.setWidth 16).signExtend 32
  | .byte => (v.setWidth 8).setWidth 32
  | .signedByte => (v.setWidth 8).signExtend 32

/-- The address is no multiple of the width; a byte access is never misaligned (R69, R70). -/
def misaligned (w : Width) (a : Word) : Bool :=
  match w with
  | .byte => false
  | .half => a.getLsbD 0
  | .word => get a 0 2 != 0

/-- The address with the low bits of the width cleared: `AND NOT 3` or `AND NOT 1` (R71). -/
def alignDown (w : Width) (a : Word) : Word :=
  match w with
  | .byte => a
  | .half => a &&& ~~~1#32
  | .word => a &&& ~~~3#32

/-- A load at the exact address, extended. -/
def State.readExact (s : State) (k : LoadKind) (a : Word) : Result (Word × State) := do
  let (v, t) ← s.memRead a (loadWidth k)
  pure (extend k v, t)

/-- A misaligned load under `Arm7` with E = 0 (R71): LDR and LDRH rotate, LDRSH loads the byte, sign-extended. -/
def State.readArm7 (s : State) (k : LoadKind) (a : Word) : Result (Word × State) :=
  match k with
  | .word => do
    let (v, t) ← s.memRead (alignDown .word a) .word
    pure (v.rotateRight (8 * (get a 0 2).toNat), t)
  | .half => do
    let (v, t) ← s.memRead (alignDown .half a) .half
    pure ((extend .half v).rotateRight (8 * (get a 0 1).toNat), t)
  | .signedHalf => s.readExact .signedByte a
  | .byte => s.readExact .byte a
  | .signedByte => s.readExact .signedByte a

/-- `DataRead`: the `MISALIGN` policy, then the bus (R69 to R72). -/
def State.dataRead (s : State) (k : LoadKind) (a : Word) : Result (Word × State) :=
  if misaligned (loadWidth k) a then
    match s.cfg.misalign with
    | .fault => .error (.misaligned a (loadWidth k))
    | .arm7 => if s.bigEndian then .error (.misaligned a (loadWidth k)) else s.readArm7 k a
    | .plainBytes => s.readExact k a
  else s.readExact k a

/-- `DataWrite`: the `MISALIGN` policy, then the bus (R69 to R72). -/
def State.dataWrite (s : State) (w : Width) (a : Word) (v : Word) : Result State :=
  if misaligned w a then
    match s.cfg.misalign with
    | .fault => .error (.misaligned a w)
    | .arm7 => if s.bigEndian then .error (.misaligned a w) else s.memWrite (alignDown w a) w v
    | .plainBytes => s.memWrite a w v
  else s.memWrite a w v

/-- The first address of a block transfer under the `MISALIGN` policy (R73): every later one differs by a multiple of 4. -/
def State.blockStart (s : State) (a : Word) : Result Word :=
  if misaligned .word a then
    match s.cfg.misalign with
    | .fault => .error (.misaligned a .word)
    | .arm7 => if s.bigEndian then .error (.misaligned a .word) else .ok (alignDown .word a)
    | .plainBytes => .ok a
  else .ok a

/-- `n` words read at `a`, `a + 4`, ... in that order (46_arm_block_transfer.md R290). -/
def State.readBlock (s : State) (a : Word) : Nat → Result (List Word × State)
  | 0 => .ok ([], s)
  | n + 1 => do
    let (v, t) ← s.memRead a .word
    let (vs, t') ← t.readBlock (a + 4) n
    pure (v :: vs, t')

/-- Words written at `a`, `a + 4`, ... in that order (R290). -/
def State.writeBlock (s : State) (a : Word) : List Word → Result State
  | [] => .ok s
  | v :: vs => do
    let t ← s.memWrite a .word v
    t.writeBlock (a + 4) vs

/-! ### Status-register writes (10_state.md R32 to R36) -/

/-- `WriteCPSR` (R35), which performs `switchMode` (R34): the view of `R[i]` and the SPSR follow `CPSR.M`, no register is copied. -/
def State.writeCpsr (s : State) (v : Word) : Result State :=
  match modeOf (get v 0 5) with
  | some _ => .ok { s with cpsr := v }
  | none => .error (.illegalMode (get v 0 5))

/-- `SPSR`, of the current mode (R33). -/
def State.readSpsr (s : State) : Result Word :=
  match s.spsr? with
  | some k => .ok s.spsr[k]
  | none => .error .noSpsr

/-- `SPSR <- v`, of the current mode; any mode field is accepted (R32, R33). -/
def State.writeSpsr (s : State) (v : Word) : Result State :=
  match s.spsr? with
  | some k => .ok { s with spsr := s.spsr.set k v k.isLt }
  | none => .error .noSpsr

/-- `RestoreCPSR` (R36). -/
def State.restoreCpsr (s : State) : Result State := do
  let v ← s.readSpsr
  s.writeCpsr v

/-! ### Program-counter writes (40_core_condition_shifter.md R165 to R169) -/

/-- `WritePC_Arm` (R166). -/
def State.writePcArm (s : State) (v : Word) : Result State :=
  if get v 0 2 = 0 then .ok { s with pc := v } else .error (.unpredictable .unalignedPcWrite)

/-- `WritePC_Thumb` (R168). -/
def State.writePcThumb (s : State) (v : Word) : State := { s with pc := v &&& ~~~1#32 }

/-- `WritePC_Interwork` (R167). -/
def State.writePcInterwork (s : State) (v : Word) : Result State :=
  if v.getLsbD 0 then .ok ((s.setThumb true).writePcThumb v)
  else if v.getLsbD 1 then .error (.unpredictable .bxUnalignedArm)
  else .ok { s.setThumb false with pc := v }

/-- `WritePC_Pop` (R169). -/
def State.writePcPop (s : State) (v : Word) : Result State :=
  if v.getLsbD 0 then .ok (s.writePcThumb v) else .error (.unpredictable .popPcInterwork)

/-- `WritePC_AfterRestore` (R169), which reads the restored T bit. -/
def State.writePcAfterRestore (s : State) (v : Word) : Result State :=
  if s.thumb then .ok (s.writePcThumb v) else s.writePcArm v

end Sys2Proof.Machine
end

