-- ==== Sys2Proof/Machine/Flags.lean ====
section
/-! DEFINITION. Machine/Flags.lean: the condition evaluator, the adder, the flag writes, and the frame of a step around an
instruction's own effect (40_core_condition_shifter.md). -/
namespace Sys2Proof.Machine
open Sys2Proof

/-! ### Conditions (R145, R146) -/

/-- `ConditionPassed`, as a function of N, Z, C and V. -/
def condHolds (c : Cond) (n z carry v : Bool) : Bool :=
  match c with
  | .eq => z
  | .ne => !z
  | .cs => carry
  | .cc => !carry
  | .mi => n
  | .pl => !n
  | .vs => v
  | .vc => !v
  | .hi => carry && !z
  | .ls => !carry || z
  | .ge => n == v
  | .lt => n != v
  | .gt => !z && n == v
  | .le => z || n != v
  | .al => true
  | .nv => false

def State.condPassed (s : State) (c : Cond) : Bool := condHolds c s.flagN s.flagZ s.flagC s.flagV

/-! ### The frame of a step (R141 to R143) -/

/-- An ARM instruction: its effect when its condition passes, else the advance (R142). -/
def armExec (c : Cond) (effect : State → Result State) (s : State) : Host.Outcome State Fault Refusal :=
  if s.condPassed c then finish (effect s) else .next s.advance

/-- A Thumb instruction: it has no condition (R142). -/
def thumbExec (effect : State → Result State) (s : State) : Host.Outcome State Fault Refusal :=
  finish (effect s)

/-! ### The adder (R160) -/

/-- The value, the carry and the overflow of `AddWithCarry`. -/
structure Sum where
  value : Word
  carry : Bool
  overflow : Bool
deriving DecidableEq, Repr

/-- `AddWithCarry`: the exact unsigned and signed sums, narrowed. -/
def addWithCarry (x y : Word) (cin : Bool) : Sum :=
  let usum : Nat := x.toNat + y.toNat + cin.toNat
  let ssum : Int := x.toInt + y.toInt + (cin.toNat : Int)
  { value := BitVec.ofNat 32 usum
    carry := decide (2 ^ 32 ≤ usum)
    overflow := decide (ssum < -2 ^ 31) || decide (2 ^ 31 ≤ ssum) }

/-! ### Flag writes (R162, R163) -/

/-- `SetNZ`. -/
def State.setNZ (s : State) (v : Word) : State := (s.setN (v.getLsbD 31)).setZ (v == 0)

/-- What an ALU operation gives: the result, C, and V where the operation defines it (R163). -/
structure AluResult where
  value : Word
  carry : Bool
  /-- None for a logical operation: V is unchanged. -/
  overflow : Option Bool
deriving DecidableEq, Repr

/-- A logical result, with the shifter's carry. -/
def logical (value : Word) (shc : Bool) : AluResult := ⟨value, shc, none⟩

/-- An arithmetic result, from the adder. -/
def arithmetic (r : Sum) : AluResult := ⟨r.value, r.carry, some r.overflow⟩

/-- V written where the operation defines it. -/
def State.setOverflow (s : State) : Option Bool → State
  | some v => s.setV v
  | none => s

/-- The flags of an ALU operation (R163; 42_arm_data_processing.md R190). -/
def State.setFlags (s : State) (r : AluResult) : State :=
  ((s.setNZ r.value).setC r.carry).setOverflow r.overflow

/-! ### The sixteen operations (42_arm_data_processing.md R194 to R209) -/

/-- AND and TST (R194, R202). `o` is operand 2 with the shifter's carry. -/
def aluAnd (op1 : Word) (o : Word × Bool) : AluResult := logical (op1 &&& o.1) o.2
/-- EOR and TEQ (R195, R203). -/
def aluEor (op1 : Word) (o : Word × Bool) : AluResult := logical (op1 ^^^ o.1) o.2
/-- SUB and CMP (R196, R204). -/
def aluSub (op1 : Word) (o : Word × Bool) : AluResult := arithmetic (addWithCarry op1 (~~~o.1) true)
/-- RSB (R197). -/
def aluRsb (op1 : Word) (o : Word × Bool) : AluResult := arithmetic (addWithCarry o.1 (~~~op1) true)
/-- ADD and CMN (R198, R205). -/
def aluAdd (op1 : Word) (o : Word × Bool) : AluResult := arithmetic (addWithCarry op1 o.1 false)
/-- ADC (R199). -/
def aluAdc (cin : Bool) (op1 : Word) (o : Word × Bool) : AluResult := arithmetic (addWithCarry op1 o.1 cin)
/-- SBC (R200). -/
def aluSbc (cin : Bool) (op1 : Word) (o : Word × Bool) : AluResult := arithmetic (addWithCarry op1 (~~~o.1) cin)
/-- RSC (R201). -/
def aluRsc (cin : Bool) (op1 : Word) (o : Word × Bool) : AluResult := arithmetic (addWithCarry o.1 (~~~op1) cin)
/-- ORR (R206). -/
def aluOrr (op1 : Word) (o : Word × Bool) : AluResult := logical (op1 ||| o.1) o.2
/-- MOV (R207). -/
def aluMov (o : Word × Bool) : AluResult := logical o.1 o.2
/-- BIC (R208). -/
def aluBic (op1 : Word) (o : Word × Bool) : AluResult := logical (op1 &&& ~~~o.1) o.2
/-- MVN (R209). -/
def aluMvn (o : Word × Bool) : AluResult := logical (~~~o.1) o.2

/-! ### Multiply flags (43_arm_multiply.md R230) -/

/-- Z from the full result, C cleared; N and V unchanged. -/
def State.setMulFlags (s : State) (zero : Bool) : State := (s.setZ zero).setC false

end Sys2Proof.Machine
end

