-- ==== Sys2Proof/Machine/Operands.lean ====
section
/-! DEFINITION. Machine/Operands.lean: the barrel shifter, the second operands, the addresses of the transfers, the register
lists. -/
namespace Sys2Proof.Machine
open Sys2Proof

/-! ### The barrel shifter (40_core_condition_shifter.md R150 to R157) -/

/-- `Shift`: the result and the carry (R150). -/
def shift (t : ShiftType) (n : Nat) (v : Word) (cin : Bool) : Word × Bool :=
  if n = 0 then (v, cin)
  else
    match t with
    | .lsl =>
      if n < 32 then (v <<< n, v.getLsbD (32 - n))
      else if n = 32 then (0, v.getLsbD 0)
      else (0, false)
    | .lsr =>
      if n < 32 then (v >>> n, v.getLsbD (n - 1))
      else if n = 32 then (0, v.getLsbD 31)
      else (0, false)
    | .asr =>
      if n < 32 then (v.sshiftRight n, v.getLsbD (n - 1))
      else (if v.getLsbD 31 then 0xFFFFFFFF else 0, v.getLsbD 31)
    | .ror =>
      if n % 32 = 0 then (v, v.getLsbD 31)
      else (v.rotateRight (n % 32), v.getLsbD (n % 32 - 1))

/-- `RRX` (R150). -/
def rrx (v : Word) (cin : Bool) : Word × Bool :=
  (put 32 31 (flagBits cin) ||| (v >>> 1), v.getLsbD 0)

/-- `ShiftReg`: only the low byte of the amount register counts (R155). -/
def shiftReg (t : ShiftType) (rs v : Word) (cin : Bool) : Word × Bool :=
  shift t (get rs 0 8).toNat v cin

/-- `ShiftImm`: the immediate field, where 0 means 32 for LSR and ASR, and RRX for ROR (R156). -/
def shiftImm (t : ShiftType) (imm5 : BitVec 5) (v : Word) (cin : Bool) : Word × Bool :=
  if imm5 = 0 then
    match t with
    | .lsl => (v, cin)
    | .lsr => shift .lsr 32 v cin
    | .asr => shift .asr 32 v cin
    | .ror => rrx v cin
  else shift t imm5.toNat v cin

/-- `ImmOperand`: the rotated immediate (R157). -/
def immOperand (rot : BitVec 4) (imm8 : BitVec 8) (cin : Bool) : Word × Bool :=
  let v := (imm8.setWidth 32).rotateRight (2 * rot.toNat)
  (v, if rot = 0 then cin else v.getLsbD 31)

/-! ### Operand 2 (42_arm_data_processing.md R191) -/

/-- The immediate form. -/
def State.operandImm (s : State) (rot : BitVec 4) (imm8 : BitVec 8) : Result (Word × Bool) :=
  .ok (immOperand rot imm8 s.flagC)

/-- A register shifted by an immediate. -/
def State.operandRsi (s : State) (imm5 : BitVec 5) (t : ShiftType) (rm : Reg) : Result (Word × Bool) :=
  .ok (shiftImm t imm5 (s.readReg rm) s.flagC)

/-- A register shifted by a register: R15 in any of its fields faults (R191, R211). `named` is Rd and Rn, where the operation has them; a
field that the operation ignores (30_encoding.md R104, R107) names no register: DEDUCED (log 9). -/
def State.operandRsr (s : State) (named : List Reg) (rs : Reg) (t : ShiftType) (rm : Reg) : Result (Word × Bool) := do
  faultIf (named.contains 15 || rm == 15 || rs == 15) (.unpredictable .dpRegShiftPc)
  pure (shiftReg t (s.readReg rs) (s.readReg rm) s.flagC)

/-! ### Addresses of the single and halfword transfers (45_arm_load_store.md R260, R266) -/

/-- The immediate offset of a single data transfer. -/
def sdtOffsetImm (imm12 : BitVec 12) : Result Word := .ok (imm12.setWidth 32)

/-- The register offset of a single data transfer; the shifter's carry is discarded (R158). -/
def State.sdtOffsetReg (s : State) (imm5 : BitVec 5) (t : ShiftType) (rm : Reg) : Result Word := do
  faultIf (rm == 15) (.unpredictable .sdtPcOffset)
  pure (shiftImm t imm5 (s.readReg rm) s.flagC).1

/-- The immediate offset of a halfword transfer. -/
def hdtOffsetImm (immHi immLo : BitVec 4) : Result Word := .ok (put 32 4 immHi ||| put 32 0 immLo)

/-- The register offset of a halfword transfer. -/
def State.hdtOffsetReg (s : State) (rm : Reg) : Result Word := do
  faultIf (rm == 15) (.unpredictable .hdtPcOffset)
  pure (s.readReg rm)

/-- The base moved by the offset: up or down. -/
def offsetAddress (u : Bool) (base offset : Word) : Word := if u then base + offset else base - offset

/-- `SdtAddress`: the address, and the value written back to the base where it is written back (R260). -/
def State.sdtAddress (s : State) (offset : Result Word) (p u w : Bool) (rn rd : Reg) : Result (Word × Option Word) := do
  let off ← offset
  let moved := offsetAddress u (s.readReg rn) off
  let wback := !p || w
  faultIf (wback && rn == 15) (.unpredictable .sdtPcWriteback)
  faultIf (wback && rn == rd) (.unpredictable .sdtBaseIsRd)
  pure (if p then moved else s.readReg rn, if wback then some moved else none)

/-- `HdtAddress` (R266). -/
def State.hdtAddress (s : State) (offset : Result Word) (p u w : Bool) (rn rd : Reg) : Result (Word × Option Word) := do
  let off ← offset
  faultIf (!p && w) (.unpredictable .hdtPostWriteback)
  let moved := offsetAddress u (s.readReg rn) off
  let wback := !p || w
  faultIf (wback && rn == 15) (.unpredictable .hdtPcWriteback)
  faultIf (wback && rn == rd) (.unpredictable .hdtBaseIsRd)
  pure (if p then moved else s.readReg rn, if wback then some moved else none)

/-! ### Register lists (46_arm_block_transfer.md R290) -/

/-- R0 to R15, in order. -/
def allRegs : List Reg := [0, 1, 2, 3, 4, 5, 6, 7, 8, 9, 10, 11, 12, 13, 14, 15]

/-- The registers of a list, from R0 up. -/
def regsOf {n : Nat} (list : BitVec n) : List Reg := allRegs.filter fun r => list.getLsbD r.val

/-- The number of bytes that `n` registers take. -/
def blockBytes (n : Nat) : Word := BitVec.ofNat 32 (4 * n)

/-- `BlockAddress`: the lowest address and the base after the transfer (R290). -/
def State.blockAddress (s : State) (mode : BlockMode) (rn : Reg) (list : BitVec 16) : Result (Word × Word) := do
  faultIf (regsOf list).isEmpty (.unpredictable .emptyList)
  faultIf (rn == 15) (.unpredictable .blockPcBase)
  let base := s.readReg rn
  let size := blockBytes (regsOf list).length
  pure (match mode with
    | .ia => (base, base + size)
    | .ib => (base + 4, base + size)
    | .da => (base - size + 4, base - size)
    | .db => (base - size, base - size))

/-! ### Thumb addresses and register fields (30_encoding.md R129; 48_thumb_data_ops.md R348) -/

/-- A word offset: `zext_32(field) * 4`. -/
def scale4 {n : Nat} (f : BitVec n) : Word := f.setWidth 32 * 4

/-- A halfword offset: `zext_32(field) * 2`. -/
def scale2 {n : Nat} (f : BitVec n) : Word := f.setWidth 32 * 2

/-- The word-aligned PC of formats 6 and 12: `(pc + 4) AND NOT 3` (R353, R360). -/
def State.pcAligned (s : State) : Word := (s.pc + 4) &&& ~~~3#32

/-- A format 5 register: the H bit over the three bits of the field (R348). -/
def hiReg (h : Bool) (r : LowReg) : Reg := ⟨(if h then 8 else 0) + r.val, by have := r.isLt; split <;> omega⟩

end Sys2Proof.Machine
end

