-- ==== Sys2Proof/Machine/BlockTransfer.lean ====
section
/-! DEFINITION. Machine/BlockTransfer.lean: LDM and STM (46_arm_block_transfer.md), and the block transfer the Thumb forms share. -/
namespace Sys2Proof.Machine
open Sys2Proof

/-- A register as STM stores it: R15 is `pc + STORED_PC_OFFSET` (R291, R293). `read` is the view it is read in. -/
def State.storedReg (s : State) (read : Reg → Word) (r : Reg) : Word := if r = 15 then s.pcStored else read r

/-- Words stored from `start` up, under the `MISALIGN` policy of block transfers (20_memory.md R73). -/
def State.storeBlock (s : State) (start : Word) (vs : List Word) : Result State := do
  let a ← s.blockStart start
  s.writeBlock a vs

/-- `n` words loaded from `start` up (R73). -/
def State.loadBlock (s : State) (start : Word) (n : Nat) : Result (List Word × State) := do
  let a ← s.blockStart start
  s.readBlock a n

/-- STM (R291): the values stored are the original ones. -/
def State.storeMultiple (s : State) (mode : BlockMode) (w : Bool) (rn : Reg) (list : BitVec 16) : Result State := do
  let (start, newBase) ← s.blockAddress mode rn list
  let regs := regsOf list
  faultIf (w && regs.contains rn && regs.head? != some rn) (.unpredictable .stmWritebackBase)
  let t ← s.advance.storeBlock start (regs.map (s.storedReg s.readReg))
  pure (if w then t.writeReg rn newBase else t)

/-- STM with the S bit: the User registers are stored (R293). -/
def State.storeMultipleUser (s : State) (mode : BlockMode) (w : Bool) (rn : Reg) (list : BitVec 16) : Result State := do
  faultIf s.spsr?.isNone (.unpredictable .userBankInUserMode)
  faultIf w (.unpredictable .userBankWriteback)
  let (start, _) ← s.blockAddress mode rn list
  s.advance.storeBlock start ((regsOf list).map (s.storedReg s.readUser))

/-- The loads of LDM, the writeback, and the registers but R15, in the bank in force at the start (R292, R294): the state, and the
value loaded for R15 where the list has it, which is the last. -/
def State.loadRegs (s : State) (mode : BlockMode) (w : Bool) (rn : Reg) (list : BitVec 16) :
    Result (State × Option Word) := do
  let (start, newBase) ← s.blockAddress mode rn list
  let regs := regsOf list
  faultIf (w && regs.contains rn) (.unpredictable .ldmWritebackBase)
  let (vs, t) ← s.advance.loadBlock start regs.length
  let t := t.writeBack rn (if w then some newBase else none)
  pure (t.writeRegs (regs.zip vs), if regs.contains 15 then vs.getLast? else none)

/-- LDM (R292). -/
def State.loadMultiple (s : State) (mode : BlockMode) (w : Bool) (rn : Reg) (list : BitVec 16) : Result State := do
  let (t, target) ← s.loadRegs mode w rn list
  match target with
  | some v => t.writePcArm v
  | none => pure t

/-- LDM with the S bit: the CPSR is restored, whether or not R15 is in the list (R294; 90_conflicts.md C10). -/
def State.loadMultipleRestore (s : State) (mode : BlockMode) (w : Bool) (rn : Reg) (list : BitVec 16) : Result State := do
  faultIf s.spsr?.isNone .noSpsr
  let (t, target) ← s.loadRegs mode w rn list
  let t ← t.restoreCpsr
  match target with
  | some v => t.writePcAfterRestore v
  | none => pure t

/-- `STMIA`: R291. -/
def execStmia (c : Cond) (w : Bool) (rn : Reg) (list : BitVec 16) (s : State) : Host.Outcome State Fault Refusal :=
  armExec c (fun s => s.storeMultiple .ia w rn list) s

/-- `STMIB`: R291. -/
def execStmib (c : Cond) (w : Bool) (rn : Reg) (list : BitVec 16) (s : State) : Host.Outcome State Fault Refusal :=
  armExec c (fun s => s.storeMultiple .ib w rn list) s

/-- `STMDA`: R291. -/
def execStmda (c : Cond) (w : Bool) (rn : Reg) (list : BitVec 16) (s : State) : Host.Outcome State Fault Refusal :=
  armExec c (fun s => s.storeMultiple .da w rn list) s

/-- `STMDB`: R291. -/
def execStmdb (c : Cond) (w : Bool) (rn : Reg) (list : BitVec 16) (s : State) : Host.Outcome State Fault Refusal :=
  armExec c (fun s => s.storeMultiple .db w rn list) s

/-- `LDMIA`: R292. -/
def execLdmia (c : Cond) (w : Bool) (rn : Reg) (list : BitVec 16) (s : State) : Host.Outcome State Fault Refusal :=
  armExec c (fun s => s.loadMultiple .ia w rn list) s

/-- `LDMIB`: R292. -/
def execLdmib (c : Cond) (w : Bool) (rn : Reg) (list : BitVec 16) (s : State) : Host.Outcome State Fault Refusal :=
  armExec c (fun s => s.loadMultiple .ib w rn list) s

/-- `LDMDA`: R292. -/
def execLdmda (c : Cond) (w : Bool) (rn : Reg) (list : BitVec 16) (s : State) : Host.Outcome State Fault Refusal :=
  armExec c (fun s => s.loadMultiple .da w rn list) s

/-- `LDMDB`: R292. -/
def execLdmdb (c : Cond) (w : Bool) (rn : Reg) (list : BitVec 16) (s : State) : Host.Outcome State Fault Refusal :=
  armExec c (fun s => s.loadMultiple .db w rn list) s

/-- `STMIA_usr`: R293. -/
def execStmiaUsr (c : Cond) (w : Bool) (rn : Reg) (list : BitVec 16) (s : State) : Host.Outcome State Fault Refusal :=
  armExec c (fun s => s.storeMultipleUser .ia w rn list) s

/-- `STMIB_usr`: R293. -/
def execStmibUsr (c : Cond) (w : Bool) (rn : Reg) (list : BitVec 16) (s : State) : Host.Outcome State Fault Refusal :=
  armExec c (fun s => s.storeMultipleUser .ib w rn list) s

/-- `STMDA_usr`: R293. -/
def execStmdaUsr (c : Cond) (w : Bool) (rn : Reg) (list : BitVec 16) (s : State) : Host.Outcome State Fault Refusal :=
  armExec c (fun s => s.storeMultipleUser .da w rn list) s

/-- `STMDB_usr`: R293. -/
def execStmdbUsr (c : Cond) (w : Bool) (rn : Reg) (list : BitVec 16) (s : State) : Host.Outcome State Fault Refusal :=
  armExec c (fun s => s.storeMultipleUser .db w rn list) s

/-- `LDMIA_rst`: R294. -/
def execLdmiaRst (c : Cond) (w : Bool) (rn : Reg) (list : BitVec 16) (s : State) : Host.Outcome State Fault Refusal :=
  armExec c (fun s => s.loadMultipleRestore .ia w rn list) s

/-- `LDMIB_rst`: R294. -/
def execLdmibRst (c : Cond) (w : Bool) (rn : Reg) (list : BitVec 16) (s : State) : Host.Outcome State Fault Refusal :=
  armExec c (fun s => s.loadMultipleRestore .ib w rn list) s

/-- `LDMDA_rst`: R294. -/
def execLdmdaRst (c : Cond) (w : Bool) (rn : Reg) (list : BitVec 16) (s : State) : Host.Outcome State Fault Refusal :=
  armExec c (fun s => s.loadMultipleRestore .da w rn list) s

/-- `LDMDB_rst`: R294. -/
def execLdmdbRst (c : Cond) (w : Bool) (rn : Reg) (list : BitVec 16) (s : State) : Host.Outcome State Fault Refusal :=
  armExec c (fun s => s.loadMultipleRestore .db w rn list) s

end Sys2Proof.Machine
end

