-- ==== Sys2Proof/Machine/Branch.lean ====
section
/-! DEFINITION. Machine/Branch.lean: the ARM branches (41_arm_branch.md). -/
namespace Sys2Proof.Machine
open Sys2Proof

/-- `pc + 8 + sext_32(offset24) * 4`, modulo 2^32 (R180, R182). -/
def State.branchTarget (s : State) (offset24 : BitVec 24) : Word := s.pc + 8 + offset24.signExtend 32 * 4

/-- `B`: R180. -/
def execB (c : Cond) (offset24 : BitVec 24) (s : State) : Host.Outcome State Fault Refusal :=
  armExec c (fun s => s.advance.writePcArm (s.branchTarget offset24)) s

/-- `BL`: R181. -/
def execBl (c : Cond) (offset24 : BitVec 24) (s : State) : Host.Outcome State Fault Refusal :=
  armExec c (fun s => (s.advance.writeReg 14 (s.pc + 4)).writePcArm (s.branchTarget offset24)) s

/-- `BX`: R183. -/
def execBx (c : Cond) (rm : Reg) (s : State) : Host.Outcome State Fault Refusal :=
  armExec c (fun s => s.advance.writePcInterwork (s.readReg rm)) s

/-- BLX: the target is read before the link register is written (R184). -/
def State.branchLinkExchange (s : State) (rm : Reg) : Result State := do
  faultIf (rm == 15) (.unpredictable .blxPc)
  (s.advance.writeReg 14 (s.pc + 4)).writePcInterwork (s.readReg rm)

/-- `BLX_reg`: R184. -/
def execBlxReg (c : Cond) (rm : Reg) (s : State) : Host.Outcome State Fault Refusal :=
  armExec c (fun s => s.branchLinkExchange rm) s

end Sys2Proof.Machine
end

