-- ==== Sys2Proof/Machine/DataProcessing.lean ====
section
/-! DEFINITION. Machine/DataProcessing.lean: the sixteen data-processing operations (42_arm_data_processing.md). -/
namespace Sys2Proof.Machine
open Sys2Proof

/-- `WriteDP`, on the advanced state (R192). -/
def State.writeDp (s : State) (setf : Bool) (rd : Reg) (r : AluResult) : Result State :=
  if rd = 15 then
    if setf then do
      let t ← s.restoreCpsr
      t.writePcAfterRestore r.value
    else s.writePcArm r.value
  else
    let t := s.writeReg rd r.value
    .ok (if setf then t.setFlags r else t)

/-- An operation that writes Rd: operand 2, the operation, the write. -/
def State.dataProc (s : State) (o : Result (Word × Bool)) (alu : Word × Bool → AluResult) (setf : Bool) (rd : Reg) :
    Result State := do
  let v ← o
  s.advance.writeDp setf rd (alu v)

/-- An operation that writes only flags (R193). -/
def State.compare (s : State) (o : Result (Word × Bool)) (alu : Word × Bool → AluResult) : Result State := do
  let v ← o
  pure (s.advance.setFlags (alu v))

/-- `AND_imm`: R194, R192. -/
def execAndImm (c : Cond) (setf : Bool) (rn rd : Reg) (rot : BitVec 4) (imm8 : BitVec 8) (s : State) : Host.Outcome State Fault Refusal :=
  armExec c (fun s => s.dataProc (s.operandImm rot imm8) (aluAnd (s.readReg rn)) setf rd) s

/-- `AND_rsi`: R194, R192. -/
def execAndRsi (c : Cond) (setf : Bool) (rn rd : Reg) (shiftImm : BitVec 5) (st : ShiftType) (rm : Reg) (s : State) : Host.Outcome State Fault Refusal :=
  armExec c (fun s => s.dataProc (s.operandRsi shiftImm st rm) (aluAnd (s.readReg rn)) setf rd) s

/-- `AND_rsr`: R194, R192. -/
def execAndRsr (c : Cond) (setf : Bool) (rn rd rs : Reg) (st : ShiftType) (rm : Reg) (s : State) : Host.Outcome State Fault Refusal :=
  armExec c (fun s => s.dataProc (s.operandRsr [rd, rn] rs st rm) (aluAnd (s.readReg rn)) setf rd) s

/-- `EOR_imm`: R195, R192. -/
def execEorImm (c : Cond) (setf : Bool) (rn rd : Reg) (rot : BitVec 4) (imm8 : BitVec 8) (s : State) : Host.Outcome State Fault Refusal :=
  armExec c (fun s => s.dataProc (s.operandImm rot imm8) (aluEor (s.readReg rn)) setf rd) s

/-- `EOR_rsi`: R195, R192. -/
def execEorRsi (c : Cond) (setf : Bool) (rn rd : Reg) (shiftImm : BitVec 5) (st : ShiftType) (rm : Reg) (s : State) : Host.Outcome State Fault Refusal :=
  armExec c (fun s => s.dataProc (s.operandRsi shiftImm st rm) (aluEor (s.readReg rn)) setf rd) s

/-- `EOR_rsr`: R195, R192. -/
def execEorRsr (c : Cond) (setf : Bool) (rn rd rs : Reg) (st : ShiftType) (rm : Reg) (s : State) : Host.Outcome State Fault Refusal :=
  armExec c (fun s => s.dataProc (s.operandRsr [rd, rn] rs st rm) (aluEor (s.readReg rn)) setf rd) s

/-- `SUB_imm`: R196, R192. -/
def execSubImm (c : Cond) (setf : Bool) (rn rd : Reg) (rot : BitVec 4) (imm8 : BitVec 8) (s : State) : Host.Outcome State Fault Refusal :=
  armExec c (fun s => s.dataProc (s.operandImm rot imm8) (aluSub (s.readReg rn)) setf rd) s

/-- `SUB_rsi`: R196, R192. -/
def execSubRsi (c : Cond) (setf : Bool) (rn rd : Reg) (shiftImm : BitVec 5) (st : ShiftType) (rm : Reg) (s : State) : Host.Outcome State Fault Refusal :=
  armExec c (fun s => s.dataProc (s.operandRsi shiftImm st rm) (aluSub (s.readReg rn)) setf rd) s

/-- `SUB_rsr`: R196, R192. -/
def execSubRsr (c : Cond) (setf : Bool) (rn rd rs : Reg) (st : ShiftType) (rm : Reg) (s : State) : Host.Outcome State Fault Refusal :=
  armExec c (fun s => s.dataProc (s.operandRsr [rd, rn] rs st rm) (aluSub (s.readReg rn)) setf rd) s

/-- `RSB_imm`: R197, R192. -/
def execRsbImm (c : Cond) (setf : Bool) (rn rd : Reg) (rot : BitVec 4) (imm8 : BitVec 8) (s : State) : Host.Outcome State Fault Refusal :=
  armExec c (fun s => s.dataProc (s.operandImm rot imm8) (aluRsb (s.readReg rn)) setf rd) s

/-- `RSB_rsi`: R197, R192. -/
def execRsbRsi (c : Cond) (setf : Bool) (rn rd : Reg) (shiftImm : BitVec 5) (st : ShiftType) (rm : Reg) (s : State) : Host.Outcome State Fault Refusal :=
  armExec c (fun s => s.dataProc (s.operandRsi shiftImm st rm) (aluRsb (s.readReg rn)) setf rd) s

/-- `RSB_rsr`: R197, R192. -/
def execRsbRsr (c : Cond) (setf : Bool) (rn rd rs : Reg) (st : ShiftType) (rm : Reg) (s : State) : Host.Outcome State Fault Refusal :=
  armExec c (fun s => s.dataProc (s.operandRsr [rd, rn] rs st rm) (aluRsb (s.readReg rn)) setf rd) s

/-- `ADD_imm`: R198, R192. -/
def execAddImm (c : Cond) (setf : Bool) (rn rd : Reg) (rot : BitVec 4) (imm8 : BitVec 8) (s : State) : Host.Outcome State Fault Refusal :=
  armExec c (fun s => s.dataProc (s.operandImm rot imm8) (aluAdd (s.readReg rn)) setf rd) s

/-- `ADD_rsi`: R198, R192. -/
def execAddRsi (c : Cond) (setf : Bool) (rn rd : Reg) (shiftImm : BitVec 5) (st : ShiftType) (rm : Reg) (s : State) : Host.Outcome State Fault Refusal :=
  armExec c (fun s => s.dataProc (s.operandRsi shiftImm st rm) (aluAdd (s.readReg rn)) setf rd) s

/-- `ADD_rsr`: R198, R192. -/
def execAddRsr (c : Cond) (setf : Bool) (rn rd rs : Reg) (st : ShiftType) (rm : Reg) (s : State) : Host.Outcome State Fault Refusal :=
  armExec c (fun s => s.dataProc (s.operandRsr [rd, rn] rs st rm) (aluAdd (s.readReg rn)) setf rd) s

/-- `ADC_imm`: R199, R192. -/
def execAdcImm (c : Cond) (setf : Bool) (rn rd : Reg) (rot : BitVec 4) (imm8 : BitVec 8) (s : State) : Host.Outcome State Fault Refusal :=
  armExec c (fun s => s.dataProc (s.operandImm rot imm8) (aluAdc s.flagC (s.readReg rn)) setf rd) s

/-- `ADC_rsi`: R199, R192. -/
def execAdcRsi (c : Cond) (setf : Bool) (rn rd : Reg) (shiftImm : BitVec 5) (st : ShiftType) (rm : Reg) (s : State) : Host.Outcome State Fault Refusal :=
  armExec c (fun s => s.dataProc (s.operandRsi shiftImm st rm) (aluAdc s.flagC (s.readReg rn)) setf rd) s

/-- `ADC_rsr`: R199, R192. -/
def execAdcRsr (c : Cond) (setf : Bool) (rn rd rs : Reg) (st : ShiftType) (rm : Reg) (s : State) : Host.Outcome State Fault Refusal :=
  armExec c (fun s => s.dataProc (s.operandRsr [rd, rn] rs st rm) (aluAdc s.flagC (s.readReg rn)) setf rd) s

/-- `SBC_imm`: R200, R192. -/
def execSbcImm (c : Cond) (setf : Bool) (rn rd : Reg) (rot : BitVec 4) (imm8 : BitVec 8) (s : State) : Host.Outcome State Fault Refusal :=
  armExec c (fun s => s.dataProc (s.operandImm rot imm8) (aluSbc s.flagC (s.readReg rn)) setf rd) s

/-- `SBC_rsi`: R200, R192. -/
def execSbcRsi (c : Cond) (setf : Bool) (rn rd : Reg) (shiftImm : BitVec 5) (st : ShiftType) (rm : Reg) (s : State) : Host.Outcome State Fault Refusal :=
  armExec c (fun s => s.dataProc (s.operandRsi shiftImm st rm) (aluSbc s.flagC (s.readReg rn)) setf rd) s

/-- `SBC_rsr`: R200, R192. -/
def execSbcRsr (c : Cond) (setf : Bool) (rn rd rs : Reg) (st : ShiftType) (rm : Reg) (s : State) : Host.Outcome State Fault Refusal :=
  armExec c (fun s => s.dataProc (s.operandRsr [rd, rn] rs st rm) (aluSbc s.flagC (s.readReg rn)) setf rd) s

/-- `RSC_imm`: R201, R192. -/
def execRscImm (c : Cond) (setf : Bool) (rn rd : Reg) (rot : BitVec 4) (imm8 : BitVec 8) (s : State) : Host.Outcome State Fault Refusal :=
  armExec c (fun s => s.dataProc (s.operandImm rot imm8) (aluRsc s.flagC (s.readReg rn)) setf rd) s

/-- `RSC_rsi`: R201, R192. -/
def execRscRsi (c : Cond) (setf : Bool) (rn rd : Reg) (shiftImm : BitVec 5) (st : ShiftType) (rm : Reg) (s : State) : Host.Outcome State Fault Refusal :=
  armExec c (fun s => s.dataProc (s.operandRsi shiftImm st rm) (aluRsc s.flagC (s.readReg rn)) setf rd) s

/-- `RSC_rsr`: R201, R192. -/
def execRscRsr (c : Cond) (setf : Bool) (rn rd rs : Reg) (st : ShiftType) (rm : Reg) (s : State) : Host.Outcome State Fault Refusal :=
  armExec c (fun s => s.dataProc (s.operandRsr [rd, rn] rs st rm) (aluRsc s.flagC (s.readReg rn)) setf rd) s

/-- `TST_imm`: R202, R193. -/
def execTstImm (c : Cond) (rn : Reg) (rot : BitVec 4) (imm8 : BitVec 8) (s : State) : Host.Outcome State Fault Refusal :=
  armExec c (fun s => s.compare (s.operandImm rot imm8) (aluAnd (s.readReg rn))) s

/-- `TST_rsi`: R202, R193. -/
def execTstRsi (c : Cond) (rn : Reg) (shiftImm : BitVec 5) (st : ShiftType) (rm : Reg) (s : State) : Host.Outcome State Fault Refusal :=
  armExec c (fun s => s.compare (s.operandRsi shiftImm st rm) (aluAnd (s.readReg rn))) s

/-- `TST_rsr`: R202, R193. -/
def execTstRsr (c : Cond) (rn _rd rs : Reg) (st : ShiftType) (rm : Reg) (s : State) : Host.Outcome State Fault Refusal :=
  armExec c (fun s => s.compare (s.operandRsr [rn] rs st rm) (aluAnd (s.readReg rn))) s

/-- `TEQ_imm`: R203, R193. -/
def execTeqImm (c : Cond) (rn : Reg) (rot : BitVec 4) (imm8 : BitVec 8) (s : State) : Host.Outcome State Fault Refusal :=
  armExec c (fun s => s.compare (s.operandImm rot imm8) (aluEor (s.readReg rn))) s

/-- `TEQ_rsi`: R203, R193. -/
def execTeqRsi (c : Cond) (rn : Reg) (shiftImm : BitVec 5) (st : ShiftType) (rm : Reg) (s : State) : Host.Outcome State Fault Refusal :=
  armExec c (fun s => s.compare (s.operandRsi shiftImm st rm) (aluEor (s.readReg rn))) s

/-- `TEQ_rsr`: R203, R193. -/
def execTeqRsr (c : Cond) (rn _rd rs : Reg) (st : ShiftType) (rm : Reg) (s : State) : Host.Outcome State Fault Refusal :=
  armExec c (fun s => s.compare (s.operandRsr [rn] rs st rm) (aluEor (s.readReg rn))) s

/-- `CMP_imm`: R204, R193. -/
def execCmpImm (c : Cond) (rn : Reg) (rot : BitVec 4) (imm8 : BitVec 8) (s : State) : Host.Outcome State Fault Refusal :=
  armExec c (fun s => s.compare (s.operandImm rot imm8) (aluSub (s.readReg rn))) s

/-- `CMP_rsi`: R204, R193. -/
def execCmpRsi (c : Cond) (rn : Reg) (shiftImm : BitVec 5) (st : ShiftType) (rm : Reg) (s : State) : Host.Outcome State Fault Refusal :=
  armExec c (fun s => s.compare (s.operandRsi shiftImm st rm) (aluSub (s.readReg rn))) s

/-- `CMP_rsr`: R204, R193. -/
def execCmpRsr (c : Cond) (rn _rd rs : Reg) (st : ShiftType) (rm : Reg) (s : State) : Host.Outcome State Fault Refusal :=
  armExec c (fun s => s.compare (s.operandRsr [rn] rs st rm) (aluSub (s.readReg rn))) s

/-- `CMN_imm`: R205, R193. -/
def execCmnImm (c : Cond) (rn : Reg) (rot : BitVec 4) (imm8 : BitVec 8) (s : State) : Host.Outcome State Fault Refusal :=
  armExec c (fun s => s.compare (s.operandImm rot imm8) (aluAdd (s.readReg rn))) s

/-- `CMN_rsi`: R205, R193. -/
def execCmnRsi (c : Cond) (rn : Reg) (shiftImm : BitVec 5) (st : ShiftType) (rm : Reg) (s : State) : Host.Outcome State Fault Refusal :=
  armExec c (fun s => s.compare (s.operandRsi shiftImm st rm) (aluAdd (s.readReg rn))) s

/-- `CMN_rsr`: R205, R193. -/
def execCmnRsr (c : Cond) (rn _rd rs : Reg) (st : ShiftType) (rm : Reg) (s : State) : Host.Outcome State Fault Refusal :=
  armExec c (fun s => s.compare (s.operandRsr [rn] rs st rm) (aluAdd (s.readReg rn))) s

/-- `ORR_imm`: R206, R192. -/
def execOrrImm (c : Cond) (setf : Bool) (rn rd : Reg) (rot : BitVec 4) (imm8 : BitVec 8) (s : State) : Host.Outcome State Fault Refusal :=
  armExec c (fun s => s.dataProc (s.operandImm rot imm8) (aluOrr (s.readReg rn)) setf rd) s

/-- `ORR_rsi`: R206, R192. -/
def execOrrRsi (c : Cond) (setf : Bool) (rn rd : Reg) (shiftImm : BitVec 5) (st : ShiftType) (rm : Reg) (s : State) : Host.Outcome State Fault Refusal :=
  armExec c (fun s => s.dataProc (s.operandRsi shiftImm st rm) (aluOrr (s.readReg rn)) setf rd) s

/-- `ORR_rsr`: R206, R192. -/
def execOrrRsr (c : Cond) (setf : Bool) (rn rd rs : Reg) (st : ShiftType) (rm : Reg) (s : State) : Host.Outcome State Fault Refusal :=
  armExec c (fun s => s.dataProc (s.operandRsr [rd, rn] rs st rm) (aluOrr (s.readReg rn)) setf rd) s

/-- `MOV_imm`: R207, R192. -/
def execMovImm (c : Cond) (setf : Bool) (rd : Reg) (rot : BitVec 4) (imm8 : BitVec 8) (s : State) : Host.Outcome State Fault Refusal :=
  armExec c (fun s => s.dataProc (s.operandImm rot imm8) aluMov setf rd) s

/-- `MOV_rsi`: R207, R192. -/
def execMovRsi (c : Cond) (setf : Bool) (rd : Reg) (shiftImm : BitVec 5) (st : ShiftType) (rm : Reg) (s : State) : Host.Outcome State Fault Refusal :=
  armExec c (fun s => s.dataProc (s.operandRsi shiftImm st rm) aluMov setf rd) s

/-- `MOV_rsr`: R207, R192. -/
def execMovRsr (c : Cond) (setf : Bool) (_rn rd rs : Reg) (st : ShiftType) (rm : Reg) (s : State) : Host.Outcome State Fault Refusal :=
  armExec c (fun s => s.dataProc (s.operandRsr [rd] rs st rm) aluMov setf rd) s

/-- `BIC_imm`: R208, R192. -/
def execBicImm (c : Cond) (setf : Bool) (rn rd : Reg) (rot : BitVec 4) (imm8 : BitVec 8) (s : State) : Host.Outcome State Fault Refusal :=
  armExec c (fun s => s.dataProc (s.operandImm rot imm8) (aluBic (s.readReg rn)) setf rd) s

/-- `BIC_rsi`: R208, R192. -/
def execBicRsi (c : Cond) (setf : Bool) (rn rd : Reg) (shiftImm : BitVec 5) (st : ShiftType) (rm : Reg) (s : State) : Host.Outcome State Fault Refusal :=
  armExec c (fun s => s.dataProc (s.operandRsi shiftImm st rm) (aluBic (s.readReg rn)) setf rd) s

/-- `BIC_rsr`: R208, R192. -/
def execBicRsr (c : Cond) (setf : Bool) (rn rd rs : Reg) (st : ShiftType) (rm : Reg) (s : State) : Host.Outcome State Fault Refusal :=
  armExec c (fun s => s.dataProc (s.operandRsr [rd, rn] rs st rm) (aluBic (s.readReg rn)) setf rd) s

/-- `MVN_imm`: R209, R192. -/
def execMvnImm (c : Cond) (setf : Bool) (rd : Reg) (rot : BitVec 4) (imm8 : BitVec 8) (s : State) : Host.Outcome State Fault Refusal :=
  armExec c (fun s => s.dataProc (s.operandImm rot imm8) aluMvn setf rd) s

/-- `MVN_rsi`: R209, R192. -/
def execMvnRsi (c : Cond) (setf : Bool) (rd : Reg) (shiftImm : BitVec 5) (st : ShiftType) (rm : Reg) (s : State) : Host.Outcome State Fault Refusal :=
  armExec c (fun s => s.dataProc (s.operandRsi shiftImm st rm) aluMvn setf rd) s

/-- `MVN_rsr`: R209, R192. -/
def execMvnRsr (c : Cond) (setf : Bool) (_rn rd rs : Reg) (st : ShiftType) (rm : Reg) (s : State) : Host.Outcome State Fault Refusal :=
  armExec c (fun s => s.dataProc (s.operandRsr [rd] rs st rm) aluMvn setf rd) s

end Sys2Proof.Machine
end

