-- ==== Sys2Proof/Machine/LoadStore.lean ====
section
/-! DEFINITION. Machine/LoadStore.lean: single data transfer, halfword and signed transfer, swap (45_arm_load_store.md). The effects come in the order of R277. -/
namespace Sys2Proof.Machine
open Sys2Proof

/-- LDR (R261): R15 is loaded through `WritePC_Arm`. -/
def State.loadWord (s : State) (address : Result (Word × Option Word)) (rn rd : Reg) : Result State := do
  let (addr, wb) ← address
  let (v, t) ← s.advance.dataRead .word addr
  let t := t.writeBack rn wb
  if rd = 15 then t.writePcArm v else pure (t.writeReg rd v)

/-- STR (R262): R15 is stored as `pc + STORED_PC_OFFSET`. -/
def State.storeWord (s : State) (address : Result (Word × Option Word)) (rn rd : Reg) : Result State := do
  let (addr, wb) ← address
  let t ← s.advance.dataWrite .word addr (if rd = 15 then s.pcStored else s.readReg rd)
  pure (t.writeBack rn wb)

/-- LDRB and the halfword loads: Rd = R15 faults first (R263, R267 to R269). -/
def State.loadNarrow (s : State) (tag : Tag) (k : LoadKind) (address : Result (Word × Option Word)) (rn rd : Reg) :
    Result State := do
  faultIf (rd == 15) (.unpredictable tag)
  let (addr, wb) ← address
  let (v, t) ← s.advance.dataRead k addr
  pure ((t.writeBack rn wb).writeReg rd v)

/-- STRB and STRH: Rd = R15 faults first; the low bits of Rd are stored (R264, R270). -/
def State.storeNarrow (s : State) (tag : Tag) (w : Width) (address : Result (Word × Option Word)) (rn rd : Reg) :
    Result State := do
  faultIf (rd == 15) (.unpredictable tag)
  let (addr, wb) ← address
  let t ← s.advance.dataWrite w addr (truncate w (s.readReg rd))
  pure (t.writeBack rn wb)

/-- SWP and SWPB: Rm is read before the store (R275, R276). -/
def State.swap (s : State) (k : LoadKind) (rn rd rm : Reg) : Result State := do
  faultIf (rd == 15 || rm == 15 || rn == 15 || rn == rd || rn == rm) (.unpredictable .swpRegs)
  let addr := s.readReg rn
  let src := truncate (loadWidth k) (s.readReg rm)
  let (old, t) ← s.advance.dataRead k addr
  let t ← t.dataWrite (loadWidth k) addr src
  pure (t.writeReg rd old)

/-- `SWP`: R275. -/
def execSwp (c : Cond) (rn rd rm : Reg) (s : State) : Host.Outcome State Fault Refusal :=
  armExec c (fun s => s.swap .word rn rd rm) s

/-- `SWPB`: R276. -/
def execSwpb (c : Cond) (rn rd rm : Reg) (s : State) : Host.Outcome State Fault Refusal :=
  armExec c (fun s => s.swap .byte rn rd rm) s

/-- `LDR_imm_pre`: R261. -/
def execLdrImmPre (c : Cond) (u w : Bool) (rn rd : Reg) (imm12 : BitVec 12) (s : State) : Host.Outcome State Fault Refusal :=
  armExec c (fun s => s.loadWord (s.sdtAddress (sdtOffsetImm imm12) true u w rn rd) rn rd) s

/-- `LDR_reg_pre`: R261. -/
def execLdrRegPre (c : Cond) (u w : Bool) (rn rd : Reg) (shiftImm : BitVec 5) (st : ShiftType) (rm : Reg) (s : State) : Host.Outcome State Fault Refusal :=
  armExec c (fun s => s.loadWord (s.sdtAddress (s.sdtOffsetReg shiftImm st rm) true u w rn rd) rn rd) s

/-- `LDR_imm_post`: R261. -/
def execLdrImmPost (c : Cond) (u : Bool) (rn rd : Reg) (imm12 : BitVec 12) (s : State) : Host.Outcome State Fault Refusal :=
  armExec c (fun s => s.loadWord (s.sdtAddress (sdtOffsetImm imm12) false u false rn rd) rn rd) s

/-- `LDR_reg_post`: R261. -/
def execLdrRegPost (c : Cond) (u : Bool) (rn rd : Reg) (shiftImm : BitVec 5) (st : ShiftType) (rm : Reg) (s : State) : Host.Outcome State Fault Refusal :=
  armExec c (fun s => s.loadWord (s.sdtAddress (s.sdtOffsetReg shiftImm st rm) false u false rn rd) rn rd) s

/-- `LDRT_imm`: R261, R265. -/
def execLdrtImm (c : Cond) (u : Bool) (rn rd : Reg) (imm12 : BitVec 12) (s : State) : Host.Outcome State Fault Refusal :=
  armExec c (fun s => s.loadWord (s.sdtAddress (sdtOffsetImm imm12) false u true rn rd) rn rd) s

/-- `LDRT_reg`: R261, R265. -/
def execLdrtReg (c : Cond) (u : Bool) (rn rd : Reg) (shiftImm : BitVec 5) (st : ShiftType) (rm : Reg) (s : State) : Host.Outcome State Fault Refusal :=
  armExec c (fun s => s.loadWord (s.sdtAddress (s.sdtOffsetReg shiftImm st rm) false u true rn rd) rn rd) s

/-- `STR_imm_pre`: R262. -/
def execStrImmPre (c : Cond) (u w : Bool) (rn rd : Reg) (imm12 : BitVec 12) (s : State) : Host.Outcome State Fault Refusal :=
  armExec c (fun s => s.storeWord (s.sdtAddress (sdtOffsetImm imm12) true u w rn rd) rn rd) s

/-- `STR_reg_pre`: R262. -/
def execStrRegPre (c : Cond) (u w : Bool) (rn rd : Reg) (shiftImm : BitVec 5) (st : ShiftType) (rm : Reg) (s : State) : Host.Outcome State Fault Refusal :=
  armExec c (fun s => s.storeWord (s.sdtAddress (s.sdtOffsetReg shiftImm st rm) true u w rn rd) rn rd) s

/-- `STR_imm_post`: R262. -/
def execStrImmPost (c : Cond) (u : Bool) (rn rd : Reg) (imm12 : BitVec 12) (s : State) : Host.Outcome State Fault Refusal :=
  armExec c (fun s => s.storeWord (s.sdtAddress (sdtOffsetImm imm12) false u false rn rd) rn rd) s

/-- `STR_reg_post`: R262. -/
def execStrRegPost (c : Cond) (u : Bool) (rn rd : Reg) (shiftImm : BitVec 5) (st : ShiftType) (rm : Reg) (s : State) : Host.Outcome State Fault Refusal :=
  armExec c (fun s => s.storeWord (s.sdtAddress (s.sdtOffsetReg shiftImm st rm) false u false rn rd) rn rd) s

/-- `STRT_imm`: R262, R265. -/
def execStrtImm (c : Cond) (u : Bool) (rn rd : Reg) (imm12 : BitVec 12) (s : State) : Host.Outcome State Fault Refusal :=
  armExec c (fun s => s.storeWord (s.sdtAddress (sdtOffsetImm imm12) false u true rn rd) rn rd) s

/-- `STRT_reg`: R262, R265. -/
def execStrtReg (c : Cond) (u : Bool) (rn rd : Reg) (shiftImm : BitVec 5) (st : ShiftType) (rm : Reg) (s : State) : Host.Outcome State Fault Refusal :=
  armExec c (fun s => s.storeWord (s.sdtAddress (s.sdtOffsetReg shiftImm st rm) false u true rn rd) rn rd) s

/-- `LDRB_imm_pre`: R263. -/
def execLdrbImmPre (c : Cond) (u w : Bool) (rn rd : Reg) (imm12 : BitVec 12) (s : State) : Host.Outcome State Fault Refusal :=
  armExec c (fun s => s.loadNarrow .ldrbPc .byte (s.sdtAddress (sdtOffsetImm imm12) true u w rn rd) rn rd) s

/-- `LDRB_reg_pre`: R263. -/
def execLdrbRegPre (c : Cond) (u w : Bool) (rn rd : Reg) (shiftImm : BitVec 5) (st : ShiftType) (rm : Reg) (s : State) : Host.Outcome State Fault Refusal :=
  armExec c (fun s => s.loadNarrow .ldrbPc .byte (s.sdtAddress (s.sdtOffsetReg shiftImm st rm) true u w rn rd) rn rd) s

/-- `LDRB_imm_post`: R263. -/
def execLdrbImmPost (c : Cond) (u : Bool) (rn rd : Reg) (imm12 : BitVec 12) (s : State) : Host.Outcome State Fault Refusal :=
  armExec c (fun s => s.loadNarrow .ldrbPc .byte (s.sdtAddress (sdtOffsetImm imm12) false u false rn rd) rn rd) s

/-- `LDRB_reg_post`: R263. -/
def execLdrbRegPost (c : Cond) (u : Bool) (rn rd : Reg) (shiftImm : BitVec 5) (st : ShiftType) (rm : Reg) (s : State) : Host.Outcome State Fault Refusal :=
  armExec c (fun s => s.loadNarrow .ldrbPc .byte (s.sdtAddress (s.sdtOffsetReg shiftImm st rm) false u false rn rd) rn rd) s

/-- `LDRBT_imm`: R263, R265. -/
def execLdrbtImm (c : Cond) (u : Bool) (rn rd : Reg) (imm12 : BitVec 12) (s : State) : Host.Outcome State Fault Refusal :=
  armExec c (fun s => s.loadNarrow .ldrbPc .byte (s.sdtAddress (sdtOffsetImm imm12) false u true rn rd) rn rd) s

/-- `LDRBT_reg`: R263, R265. -/
def execLdrbtReg (c : Cond) (u : Bool) (rn rd : Reg) (shiftImm : BitVec 5) (st : ShiftType) (rm : Reg) (s : State) : Host.Outcome State Fault Refusal :=
  armExec c (fun s => s.loadNarrow .ldrbPc .byte (s.sdtAddress (s.sdtOffsetReg shiftImm st rm) false u true rn rd) rn rd) s

/-- `STRB_imm_pre`: R264. -/
def execStrbImmPre (c : Cond) (u w : Bool) (rn rd : Reg) (imm12 : BitVec 12) (s : State) : Host.Outcome State Fault Refusal :=
  armExec c (fun s => s.storeNarrow .strbPc .byte (s.sdtAddress (sdtOffsetImm imm12) true u w rn rd) rn rd) s

/-- `STRB_reg_pre`: R264. -/
def execStrbRegPre (c : Cond) (u w : Bool) (rn rd : Reg) (shiftImm : BitVec 5) (st : ShiftType) (rm : Reg) (s : State) : Host.Outcome State Fault Refusal :=
  armExec c (fun s => s.storeNarrow .strbPc .byte (s.sdtAddress (s.sdtOffsetReg shiftImm st rm) true u w rn rd) rn rd) s

/-- `STRB_imm_post`: R264. -/
def execStrbImmPost (c : Cond) (u : Bool) (rn rd : Reg) (imm12 : BitVec 12) (s : State) : Host.Outcome State Fault Refusal :=
  armExec c (fun s => s.storeNarrow .strbPc .byte (s.sdtAddress (sdtOffsetImm imm12) false u false rn rd) rn rd) s

/-- `STRB_reg_post`: R264. -/
def execStrbRegPost (c : Cond) (u : Bool) (rn rd : Reg) (shiftImm : BitVec 5) (st : ShiftType) (rm : Reg) (s : State) : Host.Outcome State Fault Refusal :=
  armExec c (fun s => s.storeNarrow .strbPc .byte (s.sdtAddress (s.sdtOffsetReg shiftImm st rm) false u false rn rd) rn rd) s

/-- `STRBT_imm`: R264, R265. -/
def execStrbtImm (c : Cond) (u : Bool) (rn rd : Reg) (imm12 : BitVec 12) (s : State) : Host.Outcome State Fault Refusal :=
  armExec c (fun s => s.storeNarrow .strbPc .byte (s.sdtAddress (sdtOffsetImm imm12) false u true rn rd) rn rd) s

/-- `STRBT_reg`: R264, R265. -/
def execStrbtReg (c : Cond) (u : Bool) (rn rd : Reg) (shiftImm : BitVec 5) (st : ShiftType) (rm : Reg) (s : State) : Host.Outcome State Fault Refusal :=
  armExec c (fun s => s.storeNarrow .strbPc .byte (s.sdtAddress (s.sdtOffsetReg shiftImm st rm) false u true rn rd) rn rd) s

/-- `STRH_imm`: R270. -/
def execStrhImm (c : Cond) (p u w : Bool) (rn rd : Reg) (immHi immLo : BitVec 4) (s : State) : Host.Outcome State Fault Refusal :=
  armExec c (fun s => s.storeNarrow .strhPc .half (s.hdtAddress (hdtOffsetImm immHi immLo) p u w rn rd) rn rd) s

/-- `STRH_reg`: R270. -/
def execStrhReg (c : Cond) (p u w : Bool) (rn rd rm : Reg) (s : State) : Host.Outcome State Fault Refusal :=
  armExec c (fun s => s.storeNarrow .strhPc .half (s.hdtAddress (s.hdtOffsetReg rm) p u w rn rd) rn rd) s

/-- `LDRH_imm`: R267. -/
def execLdrhImm (c : Cond) (p u w : Bool) (rn rd : Reg) (immHi immLo : BitVec 4) (s : State) : Host.Outcome State Fault Refusal :=
  armExec c (fun s => s.loadNarrow .hdtLoadPc .half (s.hdtAddress (hdtOffsetImm immHi immLo) p u w rn rd) rn rd) s

/-- `LDRH_reg`: R267. -/
def execLdrhReg (c : Cond) (p u w : Bool) (rn rd rm : Reg) (s : State) : Host.Outcome State Fault Refusal :=
  armExec c (fun s => s.loadNarrow .hdtLoadPc .half (s.hdtAddress (s.hdtOffsetReg rm) p u w rn rd) rn rd) s

/-- `LDRSB_imm`: R268. -/
def execLdrsbImm (c : Cond) (p u w : Bool) (rn rd : Reg) (immHi immLo : BitVec 4) (s : State) : Host.Outcome State Fault Refusal :=
  armExec c (fun s => s.loadNarrow .hdtLoadPc .signedByte (s.hdtAddress (hdtOffsetImm immHi immLo) p u w rn rd) rn rd) s

/-- `LDRSB_reg`: R268. -/
def execLdrsbReg (c : Cond) (p u w : Bool) (rn rd rm : Reg) (s : State) : Host.Outcome State Fault Refusal :=
  armExec c (fun s => s.loadNarrow .hdtLoadPc .signedByte (s.hdtAddress (s.hdtOffsetReg rm) p u w rn rd) rn rd) s

/-- `LDRSH_imm`: R269. -/
def execLdrshImm (c : Cond) (p u w : Bool) (rn rd : Reg) (immHi immLo : BitVec 4) (s : State) : Host.Outcome State Fault Refusal :=
  armExec c (fun s => s.loadNarrow .hdtLoadPc .signedHalf (s.hdtAddress (hdtOffsetImm immHi immLo) p u w rn rd) rn rd) s

/-- `LDRSH_reg`: R269. -/
def execLdrshReg (c : Cond) (p u w : Bool) (rn rd rm : Reg) (s : State) : Host.Outcome State Fault Refusal :=
  armExec c (fun s => s.loadNarrow .hdtLoadPc .signedHalf (s.hdtAddress (s.hdtOffsetReg rm) p u w rn rd) rn rd) s

end Sys2Proof.Machine
end

