-- ==== Sys2Proof/Machine/Multiply.lean ====
section
/-! DEFINITION. Machine/Multiply.lean: the ARM multiply family (43_arm_multiply.md). Every source is read before any destination is written (R244). -/
namespace Sys2Proof.Machine
open Sys2Proof

/-- MUL and MLA: the low 32 bits of the product and the addend (R231, R232). `bad` is the register restriction. -/
def State.multiply (s : State) (bad setf : Bool) (rd : Reg) (v : Word) : Result State := do
  faultIf bad (.unpredictable .mulRegs)
  let t := s.advance.writeReg rd v
  pure (if setf then t.setMulFlags (v == 0) else t)

/-- The pair `R[RdHi] : R[RdLo]` as a 64-bit value. -/
def State.pair (s : State) (rdHi rdLo : Reg) : BitVec 64 := s.readReg rdHi ++ s.readReg rdLo

/-- The high word of a 64-bit result. -/
def high (r : BitVec 64) : Word := get r 32 32

/-- The low word of a 64-bit result. -/
def low (r : BitVec 64) : Word := get r 0 32

/-- A 64-bit result written to `R[RdHi]`, then `R[RdLo]`. -/
def State.writePair (s : State) (rdHi rdLo : Reg) (r : BitVec 64) : State :=
  (s.writeReg rdHi (high r)).writeReg rdLo (low r)

/-- `R15` in a field of a long multiply, or RdHi = RdLo (R238, R241). -/
def longBad (rdHi rdLo rs rm : Reg) : Bool :=
  rdHi == 15 || rdLo == 15 || rm == 15 || rs == 15 || rdHi == rdLo

/-- `LongRegCheck` (R243). -/
def longRegCheck (rdHi rdLo rs rm : Reg) : Bool :=
  longBad rdHi rdLo rs rm || rdHi == rm || rdLo == rm

/-- UMULL and UMLAL: N is unchanged (R230, R233, R234). -/
def State.multiplyLong (s : State) (setf : Bool) (rdHi rdLo rs rm : Reg) (r : BitVec 64) : Result State := do
  faultIf (longRegCheck rdHi rdLo rs rm) (.unpredictable .mulLongRegs)
  let t := s.advance.writePair rdHi rdLo r
  pure (if setf then t.setMulFlags (r == 0) else t)

/-- SMULL and SMLAL: N is the sign of the result (R230, R235, R236). -/
def State.multiplyLongSigned (s : State) (setf : Bool) (rdHi rdLo rs rm : Reg) (r : BitVec 64) : Result State := do
  faultIf (longRegCheck rdHi rdLo rs rm) (.unpredictable .mulLongRegs)
  let t := s.advance.writePair rdHi rdLo r
  pure (if setf then (t.setN (r.getLsbD 63)).setMulFlags (r == 0) else t)

/-- UMAAL and SMLALxy: no flag (R238, R241). -/
def State.multiplyLongPlain (s : State) (rdHi rdLo rs rm : Reg) (r : BitVec 64) : Result State := do
  faultIf (longBad rdHi rdLo rs rm) (.unpredictable .mulLongRegs)
  pure (s.advance.writePair rdHi rdLo r)

/-- The exact unsigned product. -/
def umul (x y : Word) : BitVec 64 := BitVec.ofNat 64 (x.toNat * y.toNat)

/-- The exact signed product, modulo 2^64. -/
def smul (x y : Word) : BitVec 64 := BitVec.ofInt 64 (x.toInt * y.toInt)

/-- A halfword of a register: the top one where the selector is 1 (R239 to R242). -/
def halfOf (top : Bool) (v : Word) : Half := if top then get v 16 16 else get v 0 16

/-- SMLAWy: the top 32 bits of the 48-bit product added to Rn, with Q set on signed overflow and never cleared (R239). -/
def State.multiplyWide (s : State) (y : Bool) (rd rn rs rm : Reg) : Result State := do
  faultIf (rd == 15 || rn == 15 || rs == 15 || rm == 15) (.unpredictable .mulHalfPc)
  let p : Int := ((s.readReg rm).toInt * (halfOf y (s.readReg rs)).toInt) / 2 ^ 16
  let sum : Int := p + (s.readReg rn).toInt
  let t := s.advance.writeReg rd (BitVec.ofInt 32 sum)
  pure (if sum < -2 ^ 31 ∨ 2 ^ 31 ≤ sum then t.setQ true else t)

/-- SMULxy (R242). -/
def State.multiplyHalf (s : State) (y x : Bool) (rd rs rm : Reg) : Result State := do
  faultIf (rd == 15 || rs == 15 || rm == 15) (.unpredictable .mulHalfPc)
  pure (s.advance.writeReg rd
    (BitVec.ofInt 32 ((halfOf x (s.readReg rm)).toInt * (halfOf y (s.readReg rs)).toInt)))

/-- `MUL`: R231. -/
def execMul (c : Cond) (setf : Bool) (rd rs rm : Reg) (s : State) : Host.Outcome State Fault Refusal :=
  armExec c (fun s => s.multiply (rd == 15 || rm == 15 || rs == 15 || rd == rm) setf rd (s.readReg rm * s.readReg rs)) s

/-- `MLA`: R232. -/
def execMla (c : Cond) (setf : Bool) (rd rn rs rm : Reg) (s : State) : Host.Outcome State Fault Refusal :=
  armExec c (fun s => s.multiply (rd == 15 || rm == 15 || rs == 15 || rn == 15 || rd == rm) setf rd
    (s.readReg rm * s.readReg rs + s.readReg rn)) s

/-- `UMULL`: R233. -/
def execUmull (c : Cond) (setf : Bool) (rdHi rdLo rs rm : Reg) (s : State) : Host.Outcome State Fault Refusal :=
  armExec c (fun s => s.multiplyLong setf rdHi rdLo rs rm (umul (s.readReg rm) (s.readReg rs))) s

/-- `UMLAL`: R234. -/
def execUmlal (c : Cond) (setf : Bool) (rdHi rdLo rs rm : Reg) (s : State) : Host.Outcome State Fault Refusal :=
  armExec c (fun s => s.multiplyLong setf rdHi rdLo rs rm
    (umul (s.readReg rm) (s.readReg rs) + s.pair rdHi rdLo)) s

/-- `SMULL`: R235. -/
def execSmull (c : Cond) (setf : Bool) (rdHi rdLo rs rm : Reg) (s : State) : Host.Outcome State Fault Refusal :=
  armExec c (fun s => s.multiplyLongSigned setf rdHi rdLo rs rm (smul (s.readReg rm) (s.readReg rs))) s

/-- `SMLAL`: R236. -/
def execSmlal (c : Cond) (setf : Bool) (rdHi rdLo rs rm : Reg) (s : State) : Host.Outcome State Fault Refusal :=
  armExec c (fun s => s.multiplyLongSigned setf rdHi rdLo rs rm
    (smul (s.readReg rm) (s.readReg rs) + s.pair rdHi rdLo)) s

/-- `UMAAL`: R238. -/
def execUmaal (c : Cond) (rdHi rdLo rs rm : Reg) (s : State) : Host.Outcome State Fault Refusal :=
  armExec c (fun s => s.multiplyLongPlain rdHi rdLo rs rm
    (umul (s.readReg rm) (s.readReg rs) + (s.readReg rdHi).setWidth 64 + (s.readReg rdLo).setWidth 64)) s

/-- What a refused encoding does, once its condition has passed (R237, R240; 30_encoding.md R135). -/
def refusedEncoding (what : Refused) : Result State := .error (.unmodelled what)

/-- `SMLAxy`: R237, refused by the spec. -/
def execSmlaxy (c : Cond) (_rd _rn _rs : Reg) (_y _x : Bool) (_rm : Reg) (s : State) : Host.Outcome State Fault Refusal :=
  armExec c (fun _ => refusedEncoding .smlaxy) s

/-- `SMLAWy`: R239. -/
def execSmlawy (c : Cond) (rd rn rs : Reg) (y : Bool) (rm : Reg) (s : State) : Host.Outcome State Fault Refusal :=
  armExec c (fun s => s.multiplyWide y rd rn rs rm) s

/-- `SMULWy`: R240, refused by the spec. -/
def execSmulwy (c : Cond) (_rd _rn _rs : Reg) (_y : Bool) (_rm : Reg) (s : State) : Host.Outcome State Fault Refusal :=
  armExec c (fun _ => refusedEncoding .smulwy) s

/-- `SMLALxy`: R241. -/
def execSmlalxy (c : Cond) (rdHi rdLo rs : Reg) (y x : Bool) (rm : Reg) (s : State) : Host.Outcome State Fault Refusal :=
  armExec c (fun s => s.multiplyLongPlain rdHi rdLo rs rm
    (s.pair rdHi rdLo + BitVec.ofInt 64 ((halfOf x (s.readReg rm)).toInt * (halfOf y (s.readReg rs)).toInt))) s

/-- `SMULxy`: R242. -/
def execSmulxy (c : Cond) (rd rs : Reg) (y x : Bool) (rm : Reg) (s : State) : Host.Outcome State Fault Refusal :=
  armExec c (fun s => s.multiplyHalf y x rd rs rm) s

end Sys2Proof.Machine
end

