-- ==== Sys2Proof/Machine/PsrTransfer.lean ====
section
/-! DEFINITION. Machine/PsrTransfer.lean: MRS and MSR (44_arm_psr_transfer.md). -/
namespace Sys2Proof.Machine
open Sys2Proof

/-- MRS (R250): `read` is the status register the instruction names. -/
def State.readStatus (s : State) (rd : Reg) (read : Result Word) : Result State := do
  faultIf (rd == 15) (.unpredictable .mrsPc)
  let v ← read
  pure (s.advance.writeReg rd v)

/-- The register operand of MSR (R251). -/
def State.msrReg (s : State) (rm : Reg) : Result Word := do
  faultIf (rm == 15) (.unpredictable .msrPc)
  pure (s.readReg rm)

/-- The immediate operand of MSR: the carry is discarded (R251). -/
def State.msrImm (s : State) (rot : BitVec 4) (imm8 : BitVec 8) : Result Word :=
  .ok (immOperand rot imm8 s.flagC).1

/-- The bytes a field mask selects: f, s, x and c from bit 3 down (R252). -/
def maskBytes (mask : BitVec 4) : Word :=
  (if mask.getLsbD 3 then 0xFF000000#32 else 0) ||| (if mask.getLsbD 2 then 0x00FF0000#32 else 0)
    ||| (if mask.getLsbD 1 then 0x0000FF00#32 else 0) ||| (if mask.getLsbD 0 then 0x000000FF#32 else 0)

/-- The selected bits of `new` over `old`. -/
def merge (old new m : Word) : Word := (old &&& ~~~m) ||| (new &&& m)

/-- The CPSR bytes MSR may write: in User mode the f byte alone (10_state.md R39). -/
def State.cpsrMask (s : State) (mask : BitVec 4) : Word :=
  if s.isUser then maskBytes mask &&& 0xFF000000#32 else maskBytes mask

/-- MSR to the CPSR (R252). -/
def State.msrCpsr (s : State) (mask : BitVec 4) (operand : Result Word) : Result State := do
  let v ← operand
  s.advance.writeCpsr (merge s.cpsr v (s.cpsrMask mask))

/-- MSR to the SPSR: no mode is validated (R252; 10_state.md R32). -/
def State.msrSpsr (s : State) (mask : BitVec 4) (operand : Result Word) : Result State := do
  let v ← operand
  let old ← s.readSpsr
  s.advance.writeSpsr (merge old v (maskBytes mask))

/-- `MRS_cpsr`: R250. -/
def execMrsCpsr (c : Cond) (rd : Reg) (s : State) : Host.Outcome State Fault Refusal :=
  armExec c (fun s => s.readStatus rd (.ok s.cpsr)) s

/-- `MRS_spsr`: R250. -/
def execMrsSpsr (c : Cond) (rd : Reg) (s : State) : Host.Outcome State Fault Refusal :=
  armExec c (fun s => s.readStatus rd s.readSpsr) s

/-- `MSR_reg_cpsr`: R251, R252. -/
def execMsrRegCpsr (c : Cond) (mask : BitVec 4) (rm : Reg) (s : State) : Host.Outcome State Fault Refusal :=
  armExec c (fun s => s.msrCpsr mask (s.msrReg rm)) s

/-- `MSR_reg_spsr`: R251, R252. -/
def execMsrRegSpsr (c : Cond) (mask : BitVec 4) (rm : Reg) (s : State) : Host.Outcome State Fault Refusal :=
  armExec c (fun s => s.msrSpsr mask (s.msrReg rm)) s

/-- `MSR_imm_cpsr`: R251, R252. -/
def execMsrImmCpsr (c : Cond) (mask rot : BitVec 4) (imm8 : BitVec 8) (s : State) : Host.Outcome State Fault Refusal :=
  armExec c (fun s => s.msrCpsr mask (s.msrImm rot imm8)) s

/-- `MSR_imm_spsr`: R251, R252. -/
def execMsrImmSpsr (c : Cond) (mask rot : BitVec 4) (imm8 : BitVec 8) (s : State) : Host.Outcome State Fault Refusal :=
  armExec c (fun s => s.msrSpsr mask (s.msrImm rot imm8)) s

end Sys2Proof.Machine
end

