-- ==== Sys2Proof/Machine/Services.lean ====
section
/-! DEFINITION. Machine/Services.lean: SWI, the high-level services (47_swi_and_undefined.md). -/
namespace Sys2Proof
open Sys2Proof.Machine

/-- One access of the BGAFFINE service. -/
inductive BusAccess where
  | read (addr : Word) (width : Width)
  | write (addr : Word) (width : Width) (value : Word)
deriving DecidableEq, Repr

/-- FREE VALUE. Any function of the state and the instruction: `SWI_NUMBER` where it is of neither named convention (R300;
log 5). -/
opaque Config.swiNumberFn (s : State) (i : Instr) : Word

/-- FREE VALUE. How many accesses the BGAFFINE service may make (R307; log 8). -/
opaque Config.bgAffineCount (s : State) : Nat

/-- FREE VALUE. The next access of the BGAFFINE service, from the state it started in and the values read so far, newest first (a
write adds 0); none when it is done (R307; log 8). -/
opaque Config.bgAffineAccess (s : State) (seen : List Word) : Option BusAccess

end Sys2Proof

namespace Sys2Proof.Machine
open Sys2Proof

/-- The number of a service, under `SWI_NUMBER` (R300). `comment` is the number the comment field holds. -/
def State.swiNumber (s : State) (i : Instr) (comment : BitVec 8) : Word :=
  match s.cfg.swiNumber with
  | .register k => s.readReg (k.castLE (by decide))
  | .commentField => comment.setWidth 32
  | .unspecified => Config.swiNumberFn s i

/-- EXIT (R302): the advance still happens. -/
def serviceExit (s : State) : Result State := .ok { s.advance with halted := true }

/-- The quotient rounded toward zero (R304). For -2^31 / -1 the exact quotient 2^31 wraps to -2^31. -/
def quotient (n d : Int) : Word := BitVec.ofInt 32 (n.tdiv d)

/-- The remainder, of the numerator's sign (R304). -/
def remainder (n d : Int) : Word := BitVec.ofInt 32 (n.tmod d)

/-- The magnitude of the quotient, modulo 2^32 (R304). -/
def quotientAbs (n d : Int) : Word := BitVec.ofNat 32 (n.tdiv d).natAbs

/-- DIV (R304). -/
def serviceDiv (s : State) : Result State := do
  let n := (s.readReg 0).toInt
  let d := (s.readReg 1).toInt
  faultIf (d == 0) .divideByZero
  pure (((s.advance.writeReg 0 (quotient n d)).writeReg 1 (remainder n d)).writeReg 3 (quotientAbs n d))

/-- The shift-and-correct root: bits from `k - 1` down are tried on the root found so far (R305). -/
def sqrtBits (x : Nat) : Nat → Nat → Nat
  | 0, r => r
  | k + 1, r => sqrtBits x k (if (r + 2 ^ k) * (r + 2 ^ k) ≤ x then r + 2 ^ k else r)

/-- SQRT (R305). -/
def serviceSqrt (s : State) : Result State :=
  .ok (s.advance.writeReg 0 (BitVec.ofNat 32 (sqrtBits (s.readReg 0).toNat 16 0)))

/-- ATAN: the value is open (R306; log 8). -/
def serviceAtan (s : State) : Result State := .ok (s.advance.writeReg 0 (Config.atanFn (s.readReg 0)))

/-- ATAN2: the value is open (R306; log 8). -/
def serviceAtan2 (s : State) : Result State :=
  .ok (s.advance.writeReg 0 (Config.atan2Fn (s.readReg 0) (s.readReg 1)))

/-- One bus access, with the value seen. -/
def State.access (s : State) : BusAccess → Result (Word × State)
  | .read a w => s.memRead a w
  | .write a w v => do
    let t ← s.memWrite a w v
    pure (0, t)

/-- At most `n` accesses, each chosen by `next` from the values seen so far. -/
def State.accesses (next : List Word → Option BusAccess) : Nat → List Word → State → Result State
  | 0, _, s => .ok s
  | n + 1, seen, s =>
    match next seen with
    | none => .ok s
    | some a => do
      let (v, t) ← s.access a
      State.accesses next n (v :: seen) t

/-- BGAFFINE: bus accesses and nothing else; which ones is open (R307; log 8). -/
def serviceBgAffine (s : State) : Result State :=
  State.accesses (Config.bgAffineAccess s) (Config.bgAffineCount s) [] s.advance

/-- The dispatch: a number that is none of the six is a no-op (R301, R308). -/
def State.service (s : State) (svc : Word) : Result State :=
  if svc = s.cfg.swiExit then serviceExit s
  else if svc = s.cfg.swiDiv then serviceDiv s
  else if svc = s.cfg.swiSqrt then serviceSqrt s
  else if svc = s.cfg.swiAtan then serviceAtan s
  else if svc = s.cfg.swiAtan2 then serviceAtan2 s
  else if svc = s.cfg.swiBgAffine then serviceBgAffine s
  else .ok s.advance

/-- `SWI`: R301; the comment-field number is bits 23:16 (R300). -/
def execSwi (c : Cond) (comment : BitVec 24) (s : State) : Host.Outcome State Fault Refusal :=
  armExec c (fun s => s.service (s.swiNumber (.swi c comment) (get comment 16 8))) s

/-- `SWI_T`: R301, R387; the comment-field number is `value8`. -/
def execSwiT (value8 : BitVec 8) (s : State) : Host.Outcome State Fault Refusal :=
  thumbExec (fun s => s.service (s.swiNumber (.swiT value8) value8)) s

end Sys2Proof.Machine
end

