-- ==== Sys2Proof/Machine/ThumbBranch.lean ====
section
/-! DEFINITION. Machine/ThumbBranch.lean: Thumb formats 16, 18 and 19 (49_thumb_load_store_branch.md). -/
namespace Sys2Proof.Machine
open Sys2Proof

/-- B(cond): the same evaluator as ARM (R147, R385). -/
def State.branchIfT (s : State) (c : Cond) (soffset8 : BitVec 8) : Result State :=
  .ok (if s.condPassed c then s.advance.writePcThumb (s.pc + 4 + soffset8.signExtend 32 * 2) else s.advance)

/-- `BEQ_T`: R385. -/
def execBeqT (soffset8 : BitVec 8) (s : State) : Host.Outcome State Fault Refusal :=
  thumbExec (fun s => s.branchIfT .eq soffset8) s

/-- `BNE_T`: R385. -/
def execBneT (soffset8 : BitVec 8) (s : State) : Host.Outcome State Fault Refusal :=
  thumbExec (fun s => s.branchIfT .ne soffset8) s

/-- `BCS_T`: R385. -/
def execBcsT (soffset8 : BitVec 8) (s : State) : Host.Outcome State Fault Refusal :=
  thumbExec (fun s => s.branchIfT .cs soffset8) s

/-- `BCC_T`: R385. -/
def execBccT (soffset8 : BitVec 8) (s : State) : Host.Outcome State Fault Refusal :=
  thumbExec (fun s => s.branchIfT .cc soffset8) s

/-- `BMI_T`: R385. -/
def execBmiT (soffset8 : BitVec 8) (s : State) : Host.Outcome State Fault Refusal :=
  thumbExec (fun s => s.branchIfT .mi soffset8) s

/-- `BPL_T`: R385. -/
def execBplT (soffset8 : BitVec 8) (s : State) : Host.Outcome State Fault Refusal :=
  thumbExec (fun s => s.branchIfT .pl soffset8) s

/-- `BVS_T`: R385. -/
def execBvsT (soffset8 : BitVec 8) (s : State) : Host.Outcome State Fault Refusal :=
  thumbExec (fun s => s.branchIfT .vs soffset8) s

/-- `BVC_T`: R385. -/
def execBvcT (soffset8 : BitVec 8) (s : State) : Host.Outcome State Fault Refusal :=
  thumbExec (fun s => s.branchIfT .vc soffset8) s

/-- `BHI_T`: R385. -/
def execBhiT (soffset8 : BitVec 8) (s : State) : Host.Outcome State Fault Refusal :=
  thumbExec (fun s => s.branchIfT .hi soffset8) s

/-- `BLS_T`: R385. -/
def execBlsT (soffset8 : BitVec 8) (s : State) : Host.Outcome State Fault Refusal :=
  thumbExec (fun s => s.branchIfT .ls soffset8) s

/-- `BGE_T`: R385. -/
def execBgeT (soffset8 : BitVec 8) (s : State) : Host.Outcome State Fault Refusal :=
  thumbExec (fun s => s.branchIfT .ge soffset8) s

/-- `BLT_T`: R385. -/
def execBltT (soffset8 : BitVec 8) (s : State) : Host.Outcome State Fault Refusal :=
  thumbExec (fun s => s.branchIfT .lt soffset8) s

/-- `BGT_T`: R385. -/
def execBgtT (soffset8 : BitVec 8) (s : State) : Host.Outcome State Fault Refusal :=
  thumbExec (fun s => s.branchIfT .gt soffset8) s

/-- `BLE_T`: R385. -/
def execBleT (soffset8 : BitVec 8) (s : State) : Host.Outcome State Fault Refusal :=
  thumbExec (fun s => s.branchIfT .le soffset8) s

/-- `B_T`: R386. -/
def execBT (offset11 : BitVec 11) (s : State) : Host.Outcome State Fault Refusal :=
  thumbExec (fun s => .ok (s.advance.writePcThumb (s.pc + 4 + offset11.signExtend 32 * 2))) s

/-- `BL_hi_T`: R388, a complete instruction of its own. -/
def execBlHiT (offset11 : BitVec 11) (s : State) : Host.Outcome State Fault Refusal :=
  thumbExec (fun s => .ok (s.advance.writeReg 14 (s.pc + 4 + (offset11.signExtend 32 <<< 12)))) s

/-- `BL_lo_T`: R389: the target is computed from the LR of before. -/
def execBlLoT (offset11 : BitVec 11) (s : State) : Host.Outcome State Fault Refusal :=
  thumbExec (fun s => .ok ((s.advance.writeReg 14 ((s.pc + 2) ||| 1)).writePcThumb (s.readReg 14 + (offset11.setWidth 32 <<< 1)))) s

end Sys2Proof.Machine
end

