-- ==== Sys2Proof/Machine/ThumbData.lean ====
section
/-! DEFINITION. Machine/ThumbData.lean: Thumb formats 1 to 5, 12 and 13 (48_thumb_data_ops.md). The flags follow R320. -/
namespace Sys2Proof.Machine
open Sys2Proof

/-- A shift: the result, N, Z and C (R321 to R323, R334 to R336, R339). -/
def State.shiftT (s : State) (rd : LowReg) (o : Word × Bool) : Result State :=
  .ok (((s.advance.writeReg rd.reg o.1).setNZ o.1).setC o.2)

/-- An addition or subtraction: the result and N, Z, C, V. -/
def State.arithT (s : State) (rd : LowReg) (r : Sum) : Result State :=
  .ok ((s.advance.writeReg rd.reg r.value).setFlags (arithmetic r))

/-- A comparison: N, Z, C and V. -/
def State.compareT (s : State) (r : Sum) : Result State := .ok (s.advance.setFlags (arithmetic r))

/-- A move or a logical operation: the result, N and Z. -/
def State.logicT (s : State) (rd : LowReg) (v : Word) : Result State := .ok ((s.advance.writeReg rd.reg v).setNZ v)

/-- TST: N and Z (R340). -/
def State.testT (s : State) (v : Word) : Result State := .ok (s.advance.setNZ v)

/-- MUL (R345). -/
def State.multiplyT (s : State) (rs rd : LowReg) : Result State := do
  faultIf (rd == rs) (.unpredictable .thumbMulRegs)
  s.logicT rd (s.readReg rd.reg * s.readReg rs.reg)

/-- ADD and MOV of format 5: R15 is written through `WritePC_Thumb`, no flag (R349, R351). -/
def State.writeHi (s : State) (h1 h2 : Bool) (d : Reg) (v : Word) : Result State := do
  faultIf (!h1 && !h2) (.unpredictable .hiRegLowLow)
  pure (if d = 15 then s.advance.writePcThumb v else s.advance.writeReg d v)

/-- CMP of format 5 (R350). -/
def State.compareHi (s : State) (h1 h2 : Bool) (r : Sum) : Result State := do
  faultIf (!h1 && !h2) (.unpredictable .hiRegLowLow)
  s.compareT r

/-- `LSL_imm_T`: R321. -/
def execLslImmT (offset5 : BitVec 5) (rs rd : LowReg) (s : State) : Host.Outcome State Fault Refusal :=
  thumbExec (fun s => s.shiftT rd (shiftImm .lsl offset5 (s.readReg rs.reg) s.flagC)) s

/-- `LSR_imm_T`: R322. -/
def execLsrImmT (offset5 : BitVec 5) (rs rd : LowReg) (s : State) : Host.Outcome State Fault Refusal :=
  thumbExec (fun s => s.shiftT rd (shiftImm .lsr offset5 (s.readReg rs.reg) s.flagC)) s

/-- `ASR_imm_T`: R323. -/
def execAsrImmT (offset5 : BitVec 5) (rs rd : LowReg) (s : State) : Host.Outcome State Fault Refusal :=
  thumbExec (fun s => s.shiftT rd (shiftImm .asr offset5 (s.readReg rs.reg) s.flagC)) s

/-- `ADD_reg_T`: R324. -/
def execAddRegT (rn rs rd : LowReg) (s : State) : Host.Outcome State Fault Refusal :=
  thumbExec (fun s => s.arithT rd (addWithCarry (s.readReg rs.reg) (s.readReg rn.reg) false)) s

/-- `SUB_reg_T`: R325. -/
def execSubRegT (rn rs rd : LowReg) (s : State) : Host.Outcome State Fault Refusal :=
  thumbExec (fun s => s.arithT rd (addWithCarry (s.readReg rs.reg) (~~~(s.readReg rn.reg)) true)) s

/-- `ADD_imm3_T`: R326. -/
def execAddImm3T (imm3 : BitVec 3) (rs rd : LowReg) (s : State) : Host.Outcome State Fault Refusal :=
  thumbExec (fun s => s.arithT rd (addWithCarry (s.readReg rs.reg) (imm3.setWidth 32) false)) s

/-- `SUB_imm3_T`: R327. -/
def execSubImm3T (imm3 : BitVec 3) (rs rd : LowReg) (s : State) : Host.Outcome State Fault Refusal :=
  thumbExec (fun s => s.arithT rd (addWithCarry (s.readReg rs.reg) (~~~(imm3.setWidth 32)) true)) s

/-- `MOV_imm_T`: R328. -/
def execMovImmT (rd : LowReg) (imm8 : BitVec 8) (s : State) : Host.Outcome State Fault Refusal :=
  thumbExec (fun s => s.logicT rd (imm8.setWidth 32)) s

/-- `CMP_imm_T`: R329. -/
def execCmpImmT (rd : LowReg) (imm8 : BitVec 8) (s : State) : Host.Outcome State Fault Refusal :=
  thumbExec (fun s => s.compareT (addWithCarry (s.readReg rd.reg) (~~~(imm8.setWidth 32)) true)) s

/-- `ADD_imm8_T`: R330. -/
def execAddImm8T (rd : LowReg) (imm8 : BitVec 8) (s : State) : Host.Outcome State Fault Refusal :=
  thumbExec (fun s => s.arithT rd (addWithCarry (s.readReg rd.reg) (imm8.setWidth 32) false)) s

/-- `SUB_imm8_T`: R331. -/
def execSubImm8T (rd : LowReg) (imm8 : BitVec 8) (s : State) : Host.Outcome State Fault Refusal :=
  thumbExec (fun s => s.arithT rd (addWithCarry (s.readReg rd.reg) (~~~(imm8.setWidth 32)) true)) s

/-- `AND_T`: R332. -/
def execAndT (rs rd : LowReg) (s : State) : Host.Outcome State Fault Refusal :=
  thumbExec (fun s => s.logicT rd ((s.readReg rd.reg) &&& (s.readReg rs.reg))) s

/-- `EOR_T`: R333. -/
def execEorT (rs rd : LowReg) (s : State) : Host.Outcome State Fault Refusal :=
  thumbExec (fun s => s.logicT rd ((s.readReg rd.reg) ^^^ (s.readReg rs.reg))) s

/-- `LSL_reg_T`: R334. -/
def execLslRegT (rs rd : LowReg) (s : State) : Host.Outcome State Fault Refusal :=
  thumbExec (fun s => s.shiftT rd (shiftReg .lsl (s.readReg rs.reg) (s.readReg rd.reg) s.flagC)) s

/-- `LSR_reg_T`: R335. -/
def execLsrRegT (rs rd : LowReg) (s : State) : Host.Outcome State Fault Refusal :=
  thumbExec (fun s => s.shiftT rd (shiftReg .lsr (s.readReg rs.reg) (s.readReg rd.reg) s.flagC)) s

/-- `ASR_reg_T`: R336. -/
def execAsrRegT (rs rd : LowReg) (s : State) : Host.Outcome State Fault Refusal :=
  thumbExec (fun s => s.shiftT rd (shiftReg .asr (s.readReg rs.reg) (s.readReg rd.reg) s.flagC)) s

/-- `ADC_T`: R337. -/
def execAdcT (rs rd : LowReg) (s : State) : Host.Outcome State Fault Refusal :=
  thumbExec (fun s => s.arithT rd (addWithCarry (s.readReg rd.reg) (s.readReg rs.reg) s.flagC)) s

/-- `SBC_T`: R338. -/
def execSbcT (rs rd : LowReg) (s : State) : Host.Outcome State Fault Refusal :=
  thumbExec (fun s => s.arithT rd (addWithCarry (s.readReg rd.reg) (~~~(s.readReg rs.reg)) s.flagC)) s

/-- `ROR_T`: R339. -/
def execRorT (rs rd : LowReg) (s : State) : Host.Outcome State Fault Refusal :=
  thumbExec (fun s => s.shiftT rd (shiftReg .ror (s.readReg rs.reg) (s.readReg rd.reg) s.flagC)) s

/-- `TST_T`: R340. -/
def execTstT (rs rd : LowReg) (s : State) : Host.Outcome State Fault Refusal :=
  thumbExec (fun s => s.testT ((s.readReg rd.reg) &&& (s.readReg rs.reg))) s

/-- `NEG_T`: R341. -/
def execNegT (rs rd : LowReg) (s : State) : Host.Outcome State Fault Refusal :=
  thumbExec (fun s => s.arithT rd (addWithCarry 0 (~~~(s.readReg rs.reg)) true)) s

/-- `CMP_reg_T`: R342. -/
def execCmpRegT (rs rd : LowReg) (s : State) : Host.Outcome State Fault Refusal :=
  thumbExec (fun s => s.compareT (addWithCarry (s.readReg rd.reg) (~~~(s.readReg rs.reg)) true)) s

/-- `CMN_T`: R343. -/
def execCmnT (rs rd : LowReg) (s : State) : Host.Outcome State Fault Refusal :=
  thumbExec (fun s => s.compareT (addWithCarry (s.readReg rd.reg) (s.readReg rs.reg) false)) s

/-- `ORR_T`: R344. -/
def execOrrT (rs rd : LowReg) (s : State) : Host.Outcome State Fault Refusal :=
  thumbExec (fun s => s.logicT rd ((s.readReg rd.reg) ||| (s.readReg rs.reg))) s

/-- `MUL_T`: R345. -/
def execMulT (rs rd : LowReg) (s : State) : Host.Outcome State Fault Refusal :=
  thumbExec (fun s => s.multiplyT rs rd) s

/-- `BIC_T`: R346. -/
def execBicT (rs rd : LowReg) (s : State) : Host.Outcome State Fault Refusal :=
  thumbExec (fun s => s.logicT rd ((s.readReg rd.reg) &&& ~~~(s.readReg rs.reg))) s

/-- `MVN_T`: R347. -/
def execMvnT (rs rd : LowReg) (s : State) : Host.Outcome State Fault Refusal :=
  thumbExec (fun s => s.logicT rd (~~~(s.readReg rs.reg))) s

/-- `ADD_hi_T`: R348, R349. -/
def execAddHiT (h1 h2 : Bool) (rs rd : LowReg) (s : State) : Host.Outcome State Fault Refusal :=
  thumbExec (fun s => s.writeHi h1 h2 (hiReg h1 rd) ((s.readReg (hiReg h1 rd)) + (s.readReg (hiReg h2 rs)))) s

/-- `CMP_hi_T`: R348, R350. -/
def execCmpHiT (h1 h2 : Bool) (rs rd : LowReg) (s : State) : Host.Outcome State Fault Refusal :=
  thumbExec (fun s => s.compareHi h1 h2 (addWithCarry (s.readReg (hiReg h1 rd)) (~~~(s.readReg (hiReg h2 rs))) true)) s

/-- `MOV_hi_T`: R348, R351. -/
def execMovHiT (h1 h2 : Bool) (rs rd : LowReg) (s : State) : Host.Outcome State Fault Refusal :=
  thumbExec (fun s => s.writeHi h1 h2 (hiReg h1 rd) (s.readReg (hiReg h2 rs))) s

/-- `BX_T`: R352. -/
def execBxT (h2 : Bool) (rs : LowReg) (s : State) : Host.Outcome State Fault Refusal :=
  thumbExec (fun s => s.advance.writePcInterwork (s.readReg (hiReg h2 rs))) s

/-- `BX_H1_T`: R352, UNPREDICTABLE with H1 = 1. -/
def execBxH1T (_h2 : Bool) (_rs : LowReg) (s : State) : Host.Outcome State Fault Refusal :=
  thumbExec (fun _ => .error (.unpredictable .thumbBxH1)) s

/-- `ADD_pc_T`: R353. -/
def execAddPcT (rd : LowReg) (word8 : BitVec 8) (s : State) : Host.Outcome State Fault Refusal :=
  thumbExec (fun s => .ok (s.advance.writeReg rd.reg (s.pcAligned + scale4 word8))) s

/-- `ADD_sp_T`: R354. -/
def execAddSpT (rd : LowReg) (word8 : BitVec 8) (s : State) : Host.Outcome State Fault Refusal :=
  thumbExec (fun s => .ok (s.advance.writeReg rd.reg (s.readReg 13 + scale4 word8))) s

/-- `ADD_spimm_T`: R355. -/
def execAddSpimmT (sword7 : BitVec 7) (s : State) : Host.Outcome State Fault Refusal :=
  thumbExec (fun s => .ok (s.advance.writeReg 13 (s.readReg 13 + scale4 sword7))) s

/-- `SUB_spimm_T`: R355. -/
def execSubSpimmT (sword7 : BitVec 7) (s : State) : Host.Outcome State Fault Refusal :=
  thumbExec (fun s => .ok (s.advance.writeReg 13 (s.readReg 13 - scale4 sword7))) s

end Sys2Proof.Machine
end

