-- ==== Sys2Proof/Machine/ThumbMemory.lean ====
section
/-! DEFINITION. Machine/ThumbMemory.lean: Thumb formats 6 to 11, 14 and 15 (49_thumb_load_store_branch.md). -/
namespace Sys2Proof.Machine
open Sys2Proof

/-- A load of a low register (R360, R363, R364, R366 to R368, R370, R372, R374, R376). -/
def State.loadT (s : State) (k : LoadKind) (addr : Word) (rd : LowReg) : Result State := do
  let (v, t) ← s.advance.dataRead k addr
  pure (t.writeReg rd.reg v)

/-- A store of a low register (R361, R362, R365, R369, R371, R373, R375). -/
def State.storeT (s : State) (w : Width) (addr : Word) (rd : LowReg) : Result State :=
  s.advance.dataWrite w addr (truncate w (s.readReg rd.reg))

/-- The registers of PUSH and POP: the low ones from R0 up, then LR or PC (R377, R378, R381). -/
def stackRegs (list : BitVec 8) (extra : Bool) (last : Reg) : List Reg :=
  regsOf list ++ (if extra then [last] else [])

/-- PUSH (R377). -/
def State.push (s : State) (regs : List Reg) : Result State := do
  faultIf regs.isEmpty (.unpredictable .emptyList)
  let start := s.readReg 13 - blockBytes regs.length
  let t ← s.advance.storeBlock start (regs.map s.readReg)
  pure (t.writeReg 13 start)

/-- POP (R378): `r` is the bit that adds the PC to the list, where its value is the last. -/
def State.pop (s : State) (regs : List Reg) (r : Bool) : Result State := do
  faultIf regs.isEmpty (.unpredictable .emptyList)
  let start := s.readReg 13
  let (vs, t) ← s.advance.loadBlock start regs.length
  let t := (t.writeReg 13 (start + blockBytes regs.length)).writeRegs (regs.zip vs)
  if r then t.writePcPop (vs.getLastD 0) else pure t

/-- STMIA of Thumb: always with writeback (R379). -/
def State.storeMultipleT (s : State) (rb : Reg) (regs : List Reg) : Result State := do
  faultIf regs.isEmpty (.unpredictable .emptyList)
  faultIf (regs.contains rb && regs.head? != some rb) (.unpredictable .stmWritebackBase)
  let start := s.readReg rb
  let t ← s.advance.storeBlock start (regs.map s.readReg)
  pure (t.writeReg rb (start + blockBytes regs.length))

/-- LDMIA of Thumb: always with writeback (R380). -/
def State.loadMultipleT (s : State) (rb : Reg) (regs : List Reg) : Result State := do
  faultIf regs.isEmpty (.unpredictable .emptyList)
  faultIf (regs.contains rb) (.unpredictable .ldmWritebackBase)
  let start := s.readReg rb
  let (vs, t) ← s.advance.loadBlock start regs.length
  pure ((t.writeReg rb (start + blockBytes regs.length)).writeRegs (regs.zip vs))

/-- `LDR_pc_T`: R360. -/
def execLdrPcT (rd : LowReg) (word8 : BitVec 8) (s : State) : Host.Outcome State Fault Refusal :=
  thumbExec (fun s => s.loadT .word (s.pcAligned + scale4 word8) rd) s

/-- `STR_reg_T`: R361. -/
def execStrRegT (ro rb rd : LowReg) (s : State) : Host.Outcome State Fault Refusal :=
  thumbExec (fun s => s.storeT .word (s.readReg rb.reg + s.readReg ro.reg) rd) s

/-- `STRB_reg_T`: R362. -/
def execStrbRegT (ro rb rd : LowReg) (s : State) : Host.Outcome State Fault Refusal :=
  thumbExec (fun s => s.storeT .byte (s.readReg rb.reg + s.readReg ro.reg) rd) s

/-- `LDR_reg_T`: R363. -/
def execLdrRegT (ro rb rd : LowReg) (s : State) : Host.Outcome State Fault Refusal :=
  thumbExec (fun s => s.loadT .word (s.readReg rb.reg + s.readReg ro.reg) rd) s

/-- `LDRB_reg_T`: R364. -/
def execLdrbRegT (ro rb rd : LowReg) (s : State) : Host.Outcome State Fault Refusal :=
  thumbExec (fun s => s.loadT .byte (s.readReg rb.reg + s.readReg ro.reg) rd) s

/-- `STRH_reg_T`: R365. -/
def execStrhRegT (ro rb rd : LowReg) (s : State) : Host.Outcome State Fault Refusal :=
  thumbExec (fun s => s.storeT .half (s.readReg rb.reg + s.readReg ro.reg) rd) s

/-- `LDSB_reg_T`: R366. -/
def execLdsbRegT (ro rb rd : LowReg) (s : State) : Host.Outcome State Fault Refusal :=
  thumbExec (fun s => s.loadT .signedByte (s.readReg rb.reg + s.readReg ro.reg) rd) s

/-- `LDRH_reg_T`: R367. -/
def execLdrhRegT (ro rb rd : LowReg) (s : State) : Host.Outcome State Fault Refusal :=
  thumbExec (fun s => s.loadT .half (s.readReg rb.reg + s.readReg ro.reg) rd) s

/-- `LDSH_reg_T`: R368. -/
def execLdshRegT (ro rb rd : LowReg) (s : State) : Host.Outcome State Fault Refusal :=
  thumbExec (fun s => s.loadT .signedHalf (s.readReg rb.reg + s.readReg ro.reg) rd) s

/-- `STR_imm_T`: R369. -/
def execStrImmT (offset5 : BitVec 5) (rb rd : LowReg) (s : State) : Host.Outcome State Fault Refusal :=
  thumbExec (fun s => s.storeT .word (s.readReg rb.reg + scale4 offset5) rd) s

/-- `LDR_imm_T`: R370. -/
def execLdrImmT (offset5 : BitVec 5) (rb rd : LowReg) (s : State) : Host.Outcome State Fault Refusal :=
  thumbExec (fun s => s.loadT .word (s.readReg rb.reg + scale4 offset5) rd) s

/-- `STRB_imm_T`: R371. -/
def execStrbImmT (offset5 : BitVec 5) (rb rd : LowReg) (s : State) : Host.Outcome State Fault Refusal :=
  thumbExec (fun s => s.storeT .byte (s.readReg rb.reg + offset5.setWidth 32) rd) s

/-- `LDRB_imm_T`: R372. -/
def execLdrbImmT (offset5 : BitVec 5) (rb rd : LowReg) (s : State) : Host.Outcome State Fault Refusal :=
  thumbExec (fun s => s.loadT .byte (s.readReg rb.reg + offset5.setWidth 32) rd) s

/-- `STRH_imm_T`: R373. -/
def execStrhImmT (offset5 : BitVec 5) (rb rd : LowReg) (s : State) : Host.Outcome State Fault Refusal :=
  thumbExec (fun s => s.storeT .half (s.readReg rb.reg + scale2 offset5) rd) s

/-- `LDRH_imm_T`: R374. -/
def execLdrhImmT (offset5 : BitVec 5) (rb rd : LowReg) (s : State) : Host.Outcome State Fault Refusal :=
  thumbExec (fun s => s.loadT .half (s.readReg rb.reg + scale2 offset5) rd) s

/-- `STR_sp_T`: R375. -/
def execStrSpT (rd : LowReg) (word8 : BitVec 8) (s : State) : Host.Outcome State Fault Refusal :=
  thumbExec (fun s => s.storeT .word (s.readReg 13 + scale4 word8) rd) s

/-- `LDR_sp_T`: R376. -/
def execLdrSpT (rd : LowReg) (word8 : BitVec 8) (s : State) : Host.Outcome State Fault Refusal :=
  thumbExec (fun s => s.loadT .word (s.readReg 13 + scale4 word8) rd) s

/-- `PUSH_T`: R377. -/
def execPushT (r : Bool) (list : BitVec 8) (s : State) : Host.Outcome State Fault Refusal :=
  thumbExec (fun s => s.push (stackRegs list r 14)) s

/-- `POP_T`: R378. -/
def execPopT (r : Bool) (list : BitVec 8) (s : State) : Host.Outcome State Fault Refusal :=
  thumbExec (fun s => s.pop (stackRegs list r 15) r) s

/-- `STMIA_T`: R379. -/
def execStmiaT (rb : LowReg) (list : BitVec 8) (s : State) : Host.Outcome State Fault Refusal :=
  thumbExec (fun s => s.storeMultipleT rb.reg (regsOf list)) s

/-- `LDMIA_T`: R380. -/
def execLdmiaT (rb : LowReg) (list : BitVec 8) (s : State) : Host.Outcome State Fault Refusal :=
  thumbExec (fun s => s.loadMultipleT rb.reg (regsOf list)) s

end Sys2Proof.Machine
end

