-- ==== Sys2Proof/Machine/Dispatch.lean ====
section
/-! DEFINITION. Machine/Dispatch.lean: one arm per constructor of Instr, each one call of its meaning. -/
namespace Sys2Proof.Machine
open Sys2Proof

def exec (i : Instr) (s : State) : Host.Outcome State Fault Refusal :=
  match i with
  | .andImm c setf rn rd rot imm8 => Sys2Proof.Machine.execAndImm c setf rn rd rot imm8 s
  | .andRsi c setf rn rd shiftImm st rm => Sys2Proof.Machine.execAndRsi c setf rn rd shiftImm st rm s
  | .andRsr c setf rn rd rs st rm => Sys2Proof.Machine.execAndRsr c setf rn rd rs st rm s
  | .eorImm c setf rn rd rot imm8 => Sys2Proof.Machine.execEorImm c setf rn rd rot imm8 s
  | .eorRsi c setf rn rd shiftImm st rm => Sys2Proof.Machine.execEorRsi c setf rn rd shiftImm st rm s
  | .eorRsr c setf rn rd rs st rm => Sys2Proof.Machine.execEorRsr c setf rn rd rs st rm s
  | .subImm c setf rn rd rot imm8 => Sys2Proof.Machine.execSubImm c setf rn rd rot imm8 s
  | .subRsi c setf rn rd shiftImm st rm => Sys2Proof.Machine.execSubRsi c setf rn rd shiftImm st rm s
  | .subRsr c setf rn rd rs st rm => Sys2Proof.Machine.execSubRsr c setf rn rd rs st rm s
  | .rsbImm c setf rn rd rot imm8 => Sys2Proof.Machine.execRsbImm c setf rn rd rot imm8 s
  | .rsbRsi c setf rn rd shiftImm st rm => Sys2Proof.Machine.execRsbRsi c setf rn rd shiftImm st rm s
  | .rsbRsr c setf rn rd rs st rm => Sys2Proof.Machine.execRsbRsr c setf rn rd rs st rm s
  | .addImm c setf rn rd rot imm8 => Sys2Proof.Machine.execAddImm c setf rn rd rot imm8 s
  | .addRsi c setf rn rd shiftImm st rm => Sys2Proof.Machine.execAddRsi c setf rn rd shiftImm st rm s
  | .addRsr c setf rn rd rs st rm => Sys2Proof.Machine.execAddRsr c setf rn rd rs st rm s
  | .adcImm c setf rn rd rot imm8 => Sys2Proof.Machine.execAdcImm c setf rn rd rot imm8 s
  | .adcRsi c setf rn rd shiftImm st rm => Sys2Proof.Machine.execAdcRsi c setf rn rd shiftImm st rm s
  | .adcRsr c setf rn rd rs st rm => Sys2Proof.Machine.execAdcRsr c setf rn rd rs st rm s
  | .sbcImm c setf rn rd rot imm8 => Sys2Proof.Machine.execSbcImm c setf rn rd rot imm8 s
  | .sbcRsi c setf rn rd shiftImm st rm => Sys2Proof.Machine.execSbcRsi c setf rn rd shiftImm st rm s
  | .sbcRsr c setf rn rd rs st rm => Sys2Proof.Machine.execSbcRsr c setf rn rd rs st rm s
  | .rscImm c setf rn rd rot imm8 => Sys2Proof.Machine.execRscImm c setf rn rd rot imm8 s
  | .rscRsi c setf rn rd shiftImm st rm => Sys2Proof.Machine.execRscRsi c setf rn rd shiftImm st rm s
  | .rscRsr c setf rn rd rs st rm => Sys2Proof.Machine.execRscRsr c setf rn rd rs st rm s
  | .tstImm c rn rot imm8 => Sys2Proof.Machine.execTstImm c rn rot imm8 s
  | .tstRsi c rn shiftImm st rm => Sys2Proof.Machine.execTstRsi c rn shiftImm st rm s
  | .tstRsr c rn rd rs st rm => Sys2Proof.Machine.execTstRsr c rn rd rs st rm s
  | .teqImm c rn rot imm8 => Sys2Proof.Machine.execTeqImm c rn rot imm8 s
  | .teqRsi c rn shiftImm st rm => Sys2Proof.Machine.execTeqRsi c rn shiftImm st rm s
  | .teqRsr c rn rd rs st rm => Sys2Proof.Machine.execTeqRsr c rn rd rs st rm s
  | .cmpImm c rn rot imm8 => Sys2Proof.Machine.execCmpImm c rn rot imm8 s
  | .cmpRsi c rn shiftImm st rm => Sys2Proof.Machine.execCmpRsi c rn shiftImm st rm s
  | .cmpRsr c rn rd rs st rm => Sys2Proof.Machine.execCmpRsr c rn rd rs st rm s
  | .cmnImm c rn rot imm8 => Sys2Proof.Machine.execCmnImm c rn rot imm8 s
  | .cmnRsi c rn shiftImm st rm => Sys2Proof.Machine.execCmnRsi c rn shiftImm st rm s
  | .cmnRsr c rn rd rs st rm => Sys2Proof.Machine.execCmnRsr c rn rd rs st rm s
  | .orrImm c setf rn rd rot imm8 => Sys2Proof.Machine.execOrrImm c setf rn rd rot imm8 s
  | .orrRsi c setf rn rd shiftImm st rm => Sys2Proof.Machine.execOrrRsi c setf rn rd shiftImm st rm s
  | .orrRsr c setf rn rd rs st rm => Sys2Proof.Machine.execOrrRsr c setf rn rd rs st rm s
  | .movImm c setf rd rot imm8 => Sys2Proof.Machine.execMovImm c setf rd rot imm8 s
  | .movRsi c setf rd shiftImm st rm => Sys2Proof.Machine.execMovRsi c setf rd shiftImm st rm s
  | .movRsr c setf rn rd rs st rm => Sys2Proof.Machine.execMovRsr c setf rn rd rs st rm s
  | .bicImm c setf rn rd rot imm8 => Sys2Proof.Machine.execBicImm c setf rn rd rot imm8 s
  | .bicRsi c setf rn rd shiftImm st rm => Sys2Proof.Machine.execBicRsi c setf rn rd shiftImm st rm s
  | .bicRsr c setf rn rd rs st rm => Sys2Proof.Machine.execBicRsr c setf rn rd rs st rm s
  | .mvnImm c setf rd rot imm8 => Sys2Proof.Machine.execMvnImm c setf rd rot imm8 s
  | .mvnRsi c setf rd shiftImm st rm => Sys2Proof.Machine.execMvnRsi c setf rd shiftImm st rm s
  | .mvnRsr c setf rn rd rs st rm => Sys2Proof.Machine.execMvnRsr c setf rn rd rs st rm s
  | .b c offset24 => Sys2Proof.Machine.execB c offset24 s
  | .bl c offset24 => Sys2Proof.Machine.execBl c offset24 s
  | .bx c rm => Sys2Proof.Machine.execBx c rm s
  | .blxReg c rm => Sys2Proof.Machine.execBlxReg c rm s
  | .mul c setf rd rs rm => Sys2Proof.Machine.execMul c setf rd rs rm s
  | .mla c setf rd rn rs rm => Sys2Proof.Machine.execMla c setf rd rn rs rm s
  | .umull c setf rdHi rdLo rs rm => Sys2Proof.Machine.execUmull c setf rdHi rdLo rs rm s
  | .umlal c setf rdHi rdLo rs rm => Sys2Proof.Machine.execUmlal c setf rdHi rdLo rs rm s
  | .smull c setf rdHi rdLo rs rm => Sys2Proof.Machine.execSmull c setf rdHi rdLo rs rm s
  | .smlal c setf rdHi rdLo rs rm => Sys2Proof.Machine.execSmlal c setf rdHi rdLo rs rm s
  | .umaal c rdHi rdLo rs rm => Sys2Proof.Machine.execUmaal c rdHi rdLo rs rm s
  | .smlaxy c rd rn rs y x rm => Sys2Proof.Machine.execSmlaxy c rd rn rs y x rm s
  | .smlawy c rd rn rs y rm => Sys2Proof.Machine.execSmlawy c rd rn rs y rm s
  | .smulwy c rd rn rs y rm => Sys2Proof.Machine.execSmulwy c rd rn rs y rm s
  | .smlalxy c rdHi rdLo rs y x rm => Sys2Proof.Machine.execSmlalxy c rdHi rdLo rs y x rm s
  | .smulxy c rd rs y x rm => Sys2Proof.Machine.execSmulxy c rd rs y x rm s
  | .mrsCpsr c rd => Sys2Proof.Machine.execMrsCpsr c rd s
  | .mrsSpsr c rd => Sys2Proof.Machine.execMrsSpsr c rd s
  | .msrRegCpsr c mask rm => Sys2Proof.Machine.execMsrRegCpsr c mask rm s
  | .msrRegSpsr c mask rm => Sys2Proof.Machine.execMsrRegSpsr c mask rm s
  | .msrImmCpsr c mask rot imm8 => Sys2Proof.Machine.execMsrImmCpsr c mask rot imm8 s
  | .msrImmSpsr c mask rot imm8 => Sys2Proof.Machine.execMsrImmSpsr c mask rot imm8 s
  | .swp c rn rd rm => Sys2Proof.Machine.execSwp c rn rd rm s
  | .swpb c rn rd rm => Sys2Proof.Machine.execSwpb c rn rd rm s
  | .ldrImmPre c u w rn rd imm12 => Sys2Proof.Machine.execLdrImmPre c u w rn rd imm12 s
  | .ldrRegPre c u w rn rd shiftImm st rm => Sys2Proof.Machine.execLdrRegPre c u w rn rd shiftImm st rm s
  | .ldrImmPost c u rn rd imm12 => Sys2Proof.Machine.execLdrImmPost c u rn rd imm12 s
  | .ldrRegPost c u rn rd shiftImm st rm => Sys2Proof.Machine.execLdrRegPost c u rn rd shiftImm st rm s
  | .ldrtImm c u rn rd imm12 => Sys2Proof.Machine.execLdrtImm c u rn rd imm12 s
  | .ldrtReg c u rn rd shiftImm st rm => Sys2Proof.Machine.execLdrtReg c u rn rd shiftImm st rm s
  | .strImmPre c u w rn rd imm12 => Sys2Proof.Machine.execStrImmPre c u w rn rd imm12 s
  | .strRegPre c u w rn rd shiftImm st rm => Sys2Proof.Machine.execStrRegPre c u w rn rd shiftImm st rm s
  | .strImmPost c u rn rd imm12 => Sys2Proof.Machine.execStrImmPost c u rn rd imm12 s
  | .strRegPost c u rn rd shiftImm st rm => Sys2Proof.Machine.execStrRegPost c u rn rd shiftImm st rm s
  | .strtImm c u rn rd imm12 => Sys2Proof.Machine.execStrtImm c u rn rd imm12 s
  | .strtReg c u rn rd shiftImm st rm => Sys2Proof.Machine.execStrtReg c u rn rd shiftImm st rm s
  | .ldrbImmPre c u w rn rd imm12 => Sys2Proof.Machine.execLdrbImmPre c u w rn rd imm12 s
  | .ldrbRegPre c u w rn rd shiftImm st rm => Sys2Proof.Machine.execLdrbRegPre c u w rn rd shiftImm st rm s
  | .ldrbImmPost c u rn rd imm12 => Sys2Proof.Machine.execLdrbImmPost c u rn rd imm12 s
  | .ldrbRegPost c u rn rd shiftImm st rm => Sys2Proof.Machine.execLdrbRegPost c u rn rd shiftImm st rm s
  | .ldrbtImm c u rn rd imm12 => Sys2Proof.Machine.execLdrbtImm c u rn rd imm12 s
  | .ldrbtReg c u rn rd shiftImm st rm => Sys2Proof.Machine.execLdrbtReg c u rn rd shiftImm st rm s
  | .strbImmPre c u w rn rd imm12 => Sys2Proof.Machine.execStrbImmPre c u w rn rd imm12 s
  | .strbRegPre c u w rn rd shiftImm st rm => Sys2Proof.Machine.execStrbRegPre c u w rn rd shiftImm st rm s
  | .strbImmPost c u rn rd imm12 => Sys2Proof.Machine.execStrbImmPost c u rn rd imm12 s
  | .strbRegPost c u rn rd shiftImm st rm => Sys2Proof.Machine.execStrbRegPost c u rn rd shiftImm st rm s
  | .strbtImm c u rn rd imm12 => Sys2Proof.Machine.execStrbtImm c u rn rd imm12 s
  | .strbtReg c u rn rd shiftImm st rm => Sys2Proof.Machine.execStrbtReg c u rn rd shiftImm st rm s
  | .strhImm c p u w rn rd immHi immLo => Sys2Proof.Machine.execStrhImm c p u w rn rd immHi immLo s
  | .strhReg c p u w rn rd rm => Sys2Proof.Machine.execStrhReg c p u w rn rd rm s
  | .ldrhImm c p u w rn rd immHi immLo => Sys2Proof.Machine.execLdrhImm c p u w rn rd immHi immLo s
  | .ldrhReg c p u w rn rd rm => Sys2Proof.Machine.execLdrhReg c p u w rn rd rm s
  | .ldrsbImm c p u w rn rd immHi immLo => Sys2Proof.Machine.execLdrsbImm c p u w rn rd immHi immLo s
  | .ldrsbReg c p u w rn rd rm => Sys2Proof.Machine.execLdrsbReg c p u w rn rd rm s
  | .ldrshImm c p u w rn rd immHi immLo => Sys2Proof.Machine.execLdrshImm c p u w rn rd immHi immLo s
  | .ldrshReg c p u w rn rd rm => Sys2Proof.Machine.execLdrshReg c p u w rn rd rm s
  | .stmia c w rn list => Sys2Proof.Machine.execStmia c w rn list s
  | .stmib c w rn list => Sys2Proof.Machine.execStmib c w rn list s
  | .stmda c w rn list => Sys2Proof.Machine.execStmda c w rn list s
  | .stmdb c w rn list => Sys2Proof.Machine.execStmdb c w rn list s
  | .ldmia c w rn list => Sys2Proof.Machine.execLdmia c w rn list s
  | .ldmib c w rn list => Sys2Proof.Machine.execLdmib c w rn list s
  | .ldmda c w rn list => Sys2Proof.Machine.execLdmda c w rn list s
  | .ldmdb c w rn list => Sys2Proof.Machine.execLdmdb c w rn list s
  | .stmiaUsr c w rn list => Sys2Proof.Machine.execStmiaUsr c w rn list s
  | .stmibUsr c w rn list => Sys2Proof.Machine.execStmibUsr c w rn list s
  | .stmdaUsr c w rn list => Sys2Proof.Machine.execStmdaUsr c w rn list s
  | .stmdbUsr c w rn list => Sys2Proof.Machine.execStmdbUsr c w rn list s
  | .ldmiaRst c w rn list => Sys2Proof.Machine.execLdmiaRst c w rn list s
  | .ldmibRst c w rn list => Sys2Proof.Machine.execLdmibRst c w rn list s
  | .ldmdaRst c w rn list => Sys2Proof.Machine.execLdmdaRst c w rn list s
  | .ldmdbRst c w rn list => Sys2Proof.Machine.execLdmdbRst c w rn list s
  | .swi c comment => Sys2Proof.Machine.execSwi c comment s
  | .lslImmT offset5 rs rd => Sys2Proof.Machine.execLslImmT offset5 rs rd s
  | .lsrImmT offset5 rs rd => Sys2Proof.Machine.execLsrImmT offset5 rs rd s
  | .asrImmT offset5 rs rd => Sys2Proof.Machine.execAsrImmT offset5 rs rd s
  | .addRegT rn rs rd => Sys2Proof.Machine.execAddRegT rn rs rd s
  | .subRegT rn rs rd => Sys2Proof.Machine.execSubRegT rn rs rd s
  | .addImm3T imm3 rs rd => Sys2Proof.Machine.execAddImm3T imm3 rs rd s
  | .subImm3T imm3 rs rd => Sys2Proof.Machine.execSubImm3T imm3 rs rd s
  | .movImmT rd imm8 => Sys2Proof.Machine.execMovImmT rd imm8 s
  | .cmpImmT rd imm8 => Sys2Proof.Machine.execCmpImmT rd imm8 s
  | .addImm8T rd imm8 => Sys2Proof.Machine.execAddImm8T rd imm8 s
  | .subImm8T rd imm8 => Sys2Proof.Machine.execSubImm8T rd imm8 s
  | .andT rs rd => Sys2Proof.Machine.execAndT rs rd s
  | .eorT rs rd => Sys2Proof.Machine.execEorT rs rd s
  | .lslRegT rs rd => Sys2Proof.Machine.execLslRegT rs rd s
  | .lsrRegT rs rd => Sys2Proof.Machine.execLsrRegT rs rd s
  | .asrRegT rs rd => Sys2Proof.Machine.execAsrRegT rs rd s
  | .adcT rs rd => Sys2Proof.Machine.execAdcT rs rd s
  | .sbcT rs rd => Sys2Proof.Machine.execSbcT rs rd s
  | .rorT rs rd => Sys2Proof.Machine.execRorT rs rd s
  | .tstT rs rd => Sys2Proof.Machine.execTstT rs rd s
  | .negT rs rd => Sys2Proof.Machine.execNegT rs rd s
  | .cmpRegT rs rd => Sys2Proof.Machine.execCmpRegT rs rd s
  | .cmnT rs rd => Sys2Proof.Machine.execCmnT rs rd s
  | .orrT rs rd => Sys2Proof.Machine.execOrrT rs rd s
  | .mulT rs rd => Sys2Proof.Machine.execMulT rs rd s
  | .bicT rs rd => Sys2Proof.Machine.execBicT rs rd s
  | .mvnT rs rd => Sys2Proof.Machine.execMvnT rs rd s
  | .addHiT h1 h2 rs rd => Sys2Proof.Machine.execAddHiT h1 h2 rs rd s
  | .cmpHiT h1 h2 rs rd => Sys2Proof.Machine.execCmpHiT h1 h2 rs rd s
  | .movHiT h1 h2 rs rd => Sys2Proof.Machine.execMovHiT h1 h2 rs rd s
  | .bxT h2 rs => Sys2Proof.Machine.execBxT h2 rs s
  | .bxH1T h2 rs => Sys2Proof.Machine.execBxH1T h2 rs s
  | .ldrPcT rd word8 => Sys2Proof.Machine.execLdrPcT rd word8 s
  | .strRegT ro rb rd => Sys2Proof.Machine.execStrRegT ro rb rd s
  | .strbRegT ro rb rd => Sys2Proof.Machine.execStrbRegT ro rb rd s
  | .ldrRegT ro rb rd => Sys2Proof.Machine.execLdrRegT ro rb rd s
  | .ldrbRegT ro rb rd => Sys2Proof.Machine.execLdrbRegT ro rb rd s
  | .strhRegT ro rb rd => Sys2Proof.Machine.execStrhRegT ro rb rd s
  | .ldsbRegT ro rb rd => Sys2Proof.Machine.execLdsbRegT ro rb rd s
  | .ldrhRegT ro rb rd => Sys2Proof.Machine.execLdrhRegT ro rb rd s
  | .ldshRegT ro rb rd => Sys2Proof.Machine.execLdshRegT ro rb rd s
  | .strImmT offset5 rb rd => Sys2Proof.Machine.execStrImmT offset5 rb rd s
  | .ldrImmT offset5 rb rd => Sys2Proof.Machine.execLdrImmT offset5 rb rd s
  | .strbImmT offset5 rb rd => Sys2Proof.Machine.execStrbImmT offset5 rb rd s
  | .ldrbImmT offset5 rb rd => Sys2Proof.Machine.execLdrbImmT offset5 rb rd s
  | .strhImmT offset5 rb rd => Sys2Proof.Machine.execStrhImmT offset5 rb rd s
  | .ldrhImmT offset5 rb rd => Sys2Proof.Machine.execLdrhImmT offset5 rb rd s
  | .strSpT rd word8 => Sys2Proof.Machine.execStrSpT rd word8 s
  | .ldrSpT rd word8 => Sys2Proof.Machine.execLdrSpT rd word8 s
  | .addPcT rd word8 => Sys2Proof.Machine.execAddPcT rd word8 s
  | .addSpT rd word8 => Sys2Proof.Machine.execAddSpT rd word8 s
  | .addSpimmT sword7 => Sys2Proof.Machine.execAddSpimmT sword7 s
  | .subSpimmT sword7 => Sys2Proof.Machine.execSubSpimmT sword7 s
  | .pushT r list => Sys2Proof.Machine.execPushT r list s
  | .popT r list => Sys2Proof.Machine.execPopT r list s
  | .stmiaT rb list => Sys2Proof.Machine.execStmiaT rb list s
  | .ldmiaT rb list => Sys2Proof.Machine.execLdmiaT rb list s
  | .beqT soffset8 => Sys2Proof.Machine.execBeqT soffset8 s
  | .bneT soffset8 => Sys2Proof.Machine.execBneT soffset8 s
  | .bcsT soffset8 => Sys2Proof.Machine.execBcsT soffset8 s
  | .bccT soffset8 => Sys2Proof.Machine.execBccT soffset8 s
  | .bmiT soffset8 => Sys2Proof.Machine.execBmiT soffset8 s
  | .bplT soffset8 => Sys2Proof.Machine.execBplT soffset8 s
  | .bvsT soffset8 => Sys2Proof.Machine.execBvsT soffset8 s
  | .bvcT soffset8 => Sys2Proof.Machine.execBvcT soffset8 s
  | .bhiT soffset8 => Sys2Proof.Machine.execBhiT soffset8 s
  | .blsT soffset8 => Sys2Proof.Machine.execBlsT soffset8 s
  | .bgeT soffset8 => Sys2Proof.Machine.execBgeT soffset8 s
  | .bltT soffset8 => Sys2Proof.Machine.execBltT soffset8 s
  | .bgtT soffset8 => Sys2Proof.Machine.execBgtT soffset8 s
  | .bleT soffset8 => Sys2Proof.Machine.execBleT soffset8 s
  | .swiT value8 => Sys2Proof.Machine.execSwiT value8 s
  | .bT offset11 => Sys2Proof.Machine.execBT offset11 s
  | .blHiT offset11 => Sys2Proof.Machine.execBlHiT offset11 s
  | .blLoT offset11 => Sys2Proof.Machine.execBlLoT offset11 s

end Sys2Proof.Machine
end

