-- ==== Sys2Proof/Machine/Step.lean ====
section
/-! DEFINITION. Machine/Step.lean: the step (40_core_condition_shifter.md R140, R141), and an instruction put where it fetches. -/
namespace Sys2Proof.Machine
open Sys2Proof

/-- One step: fetch, decode, execute. The advance is part of each meaning (`State.advance`); an UNDEFINED word only advances the PC,
whatever its condition (R142; 47_swi_and_undefined.md R310, R311). A halted state has no step (10_state.md R40). -/
def step (s : State) : Host.Outcome State Fault Refusal :=
  if s.halted then .fault .halted
  else
    match s.fetch with
    | .error f => .fault f
    | .ok (code, t) =>
      match decode code with
      | .ok i => exec i t
      | .error _ => .next t.undefined

/-- The instruction whose bits are `w`, stored at the program counter in the byte order of the state; a row of at most 16 bits is a
Thumb halfword, which sets T, a longer one an ARM word, which clears it (log 1). -/
def State.withFetchWord (s : State) (nbits w : Nat) : State :=
  let thumb : Bool := nbits ≤ 16
  let bytes := disassemble s.bigEndian (if thumb then 2 else 4) (BitVec.ofNat 32 w)
  { s.setThumb thumb with mem := s.mem.writeBytes s.pc.toNat bytes }

end Sys2Proof.Machine
end

