-- ==== Sys2Proof/Effects.lean ====
section
/-! DEFINITION. Effects.lean: what the spec lets each instruction change, as the statements name it: the registers it may write, the
CPSR bits it may write, whether it may read or write memory. Nothing in the machine reads it. -/
namespace Sys2Proof.Machine
open Sys2Proof

/-- The base register, where it is written back. -/
def baseIf (w : Bool) (rn : Reg) : List Reg := if w then [rn] else []

/-- The flags `m`, where the S bit is set. -/
def flagMask (setf : Bool) (m : Word) : Word := if setf then m else 0

/-- The CPSR bits of a data-processing instruction that writes Rd: with S and Rd = R15 all of them are restored
(42_arm_data_processing.md R190, R192). -/
def dpMask (setf : Bool) (rd : Reg) (m : Word) : Word := if setf then (if rd = 15 then 0xFFFFFFFF else m) else 0

/-- The registers, in the view of the current mode, that an instruction may write: its destinations, the base it writes back, SP of the
stack forms, LR of the links, R0, R1 and R3 of the services. R15 among them stands for the program counter. -/
def destinations : Instr → List Reg
  | .andImm _ _ _ rd _ _ => [rd]
  | .andRsi _ _ _ rd _ _ _ => [rd]
  | .andRsr _ _ _ rd _ _ _ => [rd]
  | .eorImm _ _ _ rd _ _ => [rd]
  | .eorRsi _ _ _ rd _ _ _ => [rd]
  | .eorRsr _ _ _ rd _ _ _ => [rd]
  | .subImm _ _ _ rd _ _ => [rd]
  | .subRsi _ _ _ rd _ _ _ => [rd]
  | .subRsr _ _ _ rd _ _ _ => [rd]
  | .rsbImm _ _ _ rd _ _ => [rd]
  | .rsbRsi _ _ _ rd _ _ _ => [rd]
  | .rsbRsr _ _ _ rd _ _ _ => [rd]
  | .addImm _ _ _ rd _ _ => [rd]
  | .addRsi _ _ _ rd _ _ _ => [rd]
  | .addRsr _ _ _ rd _ _ _ => [rd]
  | .adcImm _ _ _ rd _ _ => [rd]
  | .adcRsi _ _ _ rd _ _ _ => [rd]
  | .adcRsr _ _ _ rd _ _ _ => [rd]
  | .sbcImm _ _ _ rd _ _ => [rd]
  | .sbcRsi _ _ _ rd _ _ _ => [rd]
  | .sbcRsr _ _ _ rd _ _ _ => [rd]
  | .rscImm _ _ _ rd _ _ => [rd]
  | .rscRsi _ _ _ rd _ _ _ => [rd]
  | .rscRsr _ _ _ rd _ _ _ => [rd]
  | .tstImm _ _ _ _ => []
  | .tstRsi _ _ _ _ _ => []
  | .tstRsr _ _ _ _ _ _ => []
  | .teqImm _ _ _ _ => []
  | .teqRsi _ _ _ _ _ => []
  | .teqRsr _ _ _ _ _ _ => []
  | .cmpImm _ _ _ _ => []
  | .cmpRsi _ _ _ _ _ => []
  | .cmpRsr _ _ _ _ _ _ => []
  | .cmnImm _ _ _ _ => []
  | .cmnRsi _ _ _ _ _ => []
  | .cmnRsr _ _ _ _ _ _ => []
  | .orrImm _ _ _ rd _ _ => [rd]
  | .orrRsi _ _ _ rd _ _ _ => [rd]
  | .orrRsr _ _ _ rd _ _ _ => [rd]
  | .movImm _ _ rd _ _ => [rd]
  | .movRsi _ _ rd _ _ _ => [rd]
  | .movRsr _ _ _ rd _ _ _ => [rd]
  | .bicImm _ _ _ rd _ _ => [rd]
  | .bicRsi _ _ _ rd _ _ _ => [rd]
  | .bicRsr _ _ _ rd _ _ _ => [rd]
  | .mvnImm _ _ rd _ _ => [rd]
  | .mvnRsi _ _ rd _ _ _ => [rd]
  | .mvnRsr _ _ _ rd _ _ _ => [rd]
  | .b _ _ => []
  | .bl _ _ => [14]
  | .bx _ _ => []
  | .blxReg _ _ => [14]
  | .mul _ _ rd _ _ => [rd]
  | .mla _ _ rd _ _ _ => [rd]
  | .umull _ _ rdHi rdLo _ _ => [rdHi, rdLo]
  | .umlal _ _ rdHi rdLo _ _ => [rdHi, rdLo]
  | .smull _ _ rdHi rdLo _ _ => [rdHi, rdLo]
  | .smlal _ _ rdHi rdLo _ _ => [rdHi, rdLo]
  | .umaal _ rdHi rdLo _ _ => [rdHi, rdLo]
  | .smlaxy _ _ _ _ _ _ _ => []
  | .smlawy _ rd _ _ _ _ => [rd]
  | .smulwy _ _ _ _ _ _ => []
  | .smlalxy _ rdHi rdLo _ _ _ _ => [rdHi, rdLo]
  | .smulxy _ rd _ _ _ _ => [rd]
  | .mrsCpsr _ rd => [rd]
  | .mrsSpsr _ rd => [rd]
  | .msrRegCpsr _ _ _ => []
  | .msrRegSpsr _ _ _ => []
  | .msrImmCpsr _ _ _ _ => []
  | .msrImmSpsr _ _ _ _ => []
  | .swp _ _ rd _ => [rd]
  | .swpb _ _ rd _ => [rd]
  | .ldrImmPre _ _ w rn rd _ => rd :: baseIf w rn
  | .ldrRegPre _ _ w rn rd _ _ _ => rd :: baseIf w rn
  | .ldrImmPost _ _ rn rd _ => [rd, rn]
  | .ldrRegPost _ _ rn rd _ _ _ => [rd, rn]
  | .ldrtImm _ _ rn rd _ => [rd, rn]
  | .ldrtReg _ _ rn rd _ _ _ => [rd, rn]
  | .strImmPre _ _ w rn _ _ => baseIf w rn
  | .strRegPre _ _ w rn _ _ _ _ => baseIf w rn
  | .strImmPost _ _ rn _ _ => [rn]
  | .strRegPost _ _ rn _ _ _ _ => [rn]
  | .strtImm _ _ rn _ _ => [rn]
  | .strtReg _ _ rn _ _ _ _ => [rn]
  | .ldrbImmPre _ _ w rn rd _ => rd :: baseIf w rn
  | .ldrbRegPre _ _ w rn rd _ _ _ => rd :: baseIf w rn
  | .ldrbImmPost _ _ rn rd _ => [rd, rn]
  | .ldrbRegPost _ _ rn rd _ _ _ => [rd, rn]
  | .ldrbtImm _ _ rn rd _ => [rd, rn]
  | .ldrbtReg _ _ rn rd _ _ _ => [rd, rn]
  | .strbImmPre _ _ w rn _ _ => baseIf w rn
  | .strbRegPre _ _ w rn _ _ _ _ => baseIf w rn
  | .strbImmPost _ _ rn _ _ => [rn]
  | .strbRegPost _ _ rn _ _ _ _ => [rn]
  | .strbtImm _ _ rn _ _ => [rn]
  | .strbtReg _ _ rn _ _ _ _ => [rn]
  | .strhImm _ p _ w rn _ _ _ => baseIf (!p || w) rn
  | .strhReg _ p _ w rn _ _ => baseIf (!p || w) rn
  | .ldrhImm _ p _ w rn rd _ _ => rd :: baseIf (!p || w) rn
  | .ldrhReg _ p _ w rn rd _ => rd :: baseIf (!p || w) rn
  | .ldrsbImm _ p _ w rn rd _ _ => rd :: baseIf (!p || w) rn
  | .ldrsbReg _ p _ w rn rd _ => rd :: baseIf (!p || w) rn
  | .ldrshImm _ p _ w rn rd _ _ => rd :: baseIf (!p || w) rn
  | .ldrshReg _ p _ w rn rd _ => rd :: baseIf (!p || w) rn
  | .stmia _ w rn _ => baseIf w rn
  | .stmib _ w rn _ => baseIf w rn
  | .stmda _ w rn _ => baseIf w rn
  | .stmdb _ w rn _ => baseIf w rn
  | .ldmia _ w rn list => regsOf list ++ baseIf w rn
  | .ldmib _ w rn list => regsOf list ++ baseIf w rn
  | .ldmda _ w rn list => regsOf list ++ baseIf w rn
  | .ldmdb _ w rn list => regsOf list ++ baseIf w rn
  | .stmiaUsr _ _ _ _ => []
  | .stmibUsr _ _ _ _ => []
  | .stmdaUsr _ _ _ _ => []
  | .stmdbUsr _ _ _ _ => []
  | .ldmiaRst _ w rn list => regsOf list ++ baseIf w rn
  | .ldmibRst _ w rn list => regsOf list ++ baseIf w rn
  | .ldmdaRst _ w rn list => regsOf list ++ baseIf w rn
  | .ldmdbRst _ w rn list => regsOf list ++ baseIf w rn
  | .swi _ _ => [0, 1, 3]
  | .lslImmT _ _ rd => [rd.reg]
  | .lsrImmT _ _ rd => [rd.reg]
  | .asrImmT _ _ rd => [rd.reg]
  | .addRegT _ _ rd => [rd.reg]
  | .subRegT _ _ rd => [rd.reg]
  | .addImm3T _ _ rd => [rd.reg]
  | .subImm3T _ _ rd => [rd.reg]
  | .movImmT rd _ => [rd.reg]
  | .cmpImmT _ _ => []
  | .addImm8T rd _ => [rd.reg]
  | .subImm8T rd _ => [rd.reg]
  | .andT _ rd => [rd.reg]
  | .eorT _ rd => [rd.reg]
  | .lslRegT _ rd => [rd.reg]
  | .lsrRegT _ rd => [rd.reg]
  | .asrRegT _ rd => [rd.reg]
  | .adcT _ rd => [rd.reg]
  | .sbcT _ rd => [rd.reg]
  | .rorT _ rd => [rd.reg]
  | .tstT _ _ => []
  | .negT _ rd => [rd.reg]
  | .cmpRegT _ _ => []
  | .cmnT _ _ => []
  | .orrT _ rd => [rd.reg]
  | .mulT _ rd => [rd.reg]
  | .bicT _ rd => [rd.reg]
  | .mvnT _ rd => [rd.reg]
  | .addHiT h1 _ _ rd => [hiReg h1 rd]
  | .cmpHiT _ _ _ _ => []
  | .movHiT h1 _ _ rd => [hiReg h1 rd]
  | .bxT _ _ => []
  | .bxH1T _ _ => []
  | .ldrPcT rd _ => [rd.reg]
  | .strRegT _ _ _ => []
  | .strbRegT _ _ _ => []
  | .ldrRegT _ _ rd => [rd.reg]
  | .ldrbRegT _ _ rd => [rd.reg]
  | .strhRegT _ _ _ => []
  | .ldsbRegT _ _ rd => [rd.reg]
  | .ldrhRegT _ _ rd => [rd.reg]
  | .ldshRegT _ _ rd => [rd.reg]
  | .strImmT _ _ _ => []
  | .ldrImmT _ _ rd => [rd.reg]
  | .strbImmT _ _ _ => []
  | .ldrbImmT _ _ rd => [rd.reg]
  | .strhImmT _ _ _ => []
  | .ldrhImmT _ _ rd => [rd.reg]
  | .strSpT _ _ => []
  | .ldrSpT rd _ => [rd.reg]
  | .addPcT rd _ => [rd.reg]
  | .addSpT rd _ => [rd.reg]
  | .addSpimmT _ => [13]
  | .subSpimmT _ => [13]
  | .pushT _ _ => [13]
  | .popT _ list => 13 :: regsOf list
  | .stmiaT rb _ => [rb.reg]
  | .ldmiaT rb list => rb.reg :: regsOf list
  | .beqT _ => []
  | .bneT _ => []
  | .bcsT _ => []
  | .bccT _ => []
  | .bmiT _ => []
  | .bplT _ => []
  | .bvsT _ => []
  | .bvcT _ => []
  | .bhiT _ => []
  | .blsT _ => []
  | .bgeT _ => []
  | .bltT _ => []
  | .bgtT _ => []
  | .bleT _ => []
  | .swiT _ => [0, 1, 3]
  | .bT _ => []
  | .blHiT _ => [14]
  | .blLoT _ => [14]

/-- The CPSR bits an instruction may write (10_state.md R30, R37; 48_thumb_data_ops.md R320). -/
def statusMask : Instr → Word
  | .andImm _ setf _ rd _ _ => dpMask setf rd 0xE0000000
  | .andRsi _ setf _ rd _ _ _ => dpMask setf rd 0xE0000000
  | .andRsr _ setf _ rd _ _ _ => dpMask setf rd 0xE0000000
  | .eorImm _ setf _ rd _ _ => dpMask setf rd 0xE0000000
  | .eorRsi _ setf _ rd _ _ _ => dpMask setf rd 0xE0000000
  | .eorRsr _ setf _ rd _ _ _ => dpMask setf rd 0xE0000000
  | .subImm _ setf _ rd _ _ => dpMask setf rd 0xF0000000
  | .subRsi _ setf _ rd _ _ _ => dpMask setf rd 0xF0000000
  | .subRsr _ setf _ rd _ _ _ => dpMask setf rd 0xF0000000
  | .rsbImm _ setf _ rd _ _ => dpMask setf rd 0xF0000000
  | .rsbRsi _ setf _ rd _ _ _ => dpMask setf rd 0xF0000000
  | .rsbRsr _ setf _ rd _ _ _ => dpMask setf rd 0xF0000000
  | .addImm _ setf _ rd _ _ => dpMask setf rd 0xF0000000
  | .addRsi _ setf _ rd _ _ _ => dpMask setf rd 0xF0000000
  | .addRsr _ setf _ rd _ _ _ => dpMask setf rd 0xF0000000
  | .adcImm _ setf _ rd _ _ => dpMask setf rd 0xF0000000
  | .adcRsi _ setf _ rd _ _ _ => dpMask setf rd 0xF0000000
  | .adcRsr _ setf _ rd _ _ _ => dpMask setf rd 0xF0000000
  | .sbcImm _ setf _ rd _ _ => dpMask setf rd 0xF0000000
  | .sbcRsi _ setf _ rd _ _ _ => dpMask setf rd 0xF0000000
  | .sbcRsr _ setf _ rd _ _ _ => dpMask setf rd 0xF0000000
  | .rscImm _ setf _ rd _ _ => dpMask setf rd 0xF0000000
  | .rscRsi _ setf _ rd _ _ _ => dpMask setf rd 0xF0000000
  | .rscRsr _ setf _ rd _ _ _ => dpMask setf rd 0xF0000000
  | .tstImm _ _ _ _ => 0xE0000000
  | .tstRsi _ _ _ _ _ => 0xE0000000
  | .tstRsr _ _ _ _ _ _ => 0xE0000000
  | .teqImm _ _ _ _ => 0xE0000000
  | .teqRsi _ _ _ _ _ => 0xE0000000
  | .teqRsr _ _ _ _ _ _ => 0xE0000000
  | .cmpImm _ _ _ _ => 0xF0000000
  | .cmpRsi _ _ _ _ _ => 0xF0000000
  | .cmpRsr _ _ _ _ _ _ => 0xF0000000
  | .cmnImm _ _ _ _ => 0xF0000000
  | .cmnRsi _ _ _ _ _ => 0xF0000000
  | .cmnRsr _ _ _ _ _ _ => 0xF0000000
  | .orrImm _ setf _ rd _ _ => dpMask setf rd 0xE0000000
  | .orrRsi _ setf _ rd _ _ _ => dpMask setf rd 0xE0000000
  | .orrRsr _ setf _ rd _ _ _ => dpMask setf rd 0xE0000000
  | .movImm _ setf rd _ _ => dpMask setf rd 0xE0000000
  | .movRsi _ setf rd _ _ _ => dpMask setf rd 0xE0000000
  | .movRsr _ setf _ rd _ _ _ => dpMask setf rd 0xE0000000
  | .bicImm _ setf _ rd _ _ => dpMask setf rd 0xE0000000
  | .bicRsi _ setf _ rd _ _ _ => dpMask setf rd 0xE0000000
  | .bicRsr _ setf _ rd _ _ _ => dpMask setf rd 0xE0000000
  | .mvnImm _ setf rd _ _ => dpMask setf rd 0xE0000000
  | .mvnRsi _ setf rd _ _ _ => dpMask setf rd 0xE0000000
  | .mvnRsr _ setf _ rd _ _ _ => dpMask setf rd 0xE0000000
  | .b _ _ => 0
  | .bl _ _ => 0
  | .bx _ _ => 0x00000020
  | .blxReg _ _ => 0x00000020
  | .mul _ setf _ _ _ => flagMask setf 0x60000000
  | .mla _ setf _ _ _ _ => flagMask setf 0x60000000
  | .umull _ setf _ _ _ _ => flagMask setf 0x60000000
  | .umlal _ setf _ _ _ _ => flagMask setf 0x60000000
  | .smull _ setf _ _ _ _ => flagMask setf 0xE0000000
  | .smlal _ setf _ _ _ _ => flagMask setf 0xE0000000
  | .umaal _ _ _ _ _ => 0
  | .smlaxy _ _ _ _ _ _ _ => 0
  | .smlawy _ _ _ _ _ _ => 0x08000000
  | .smulwy _ _ _ _ _ _ => 0
  | .smlalxy _ _ _ _ _ _ _ => 0
  | .smulxy _ _ _ _ _ _ => 0
  | .mrsCpsr _ _ => 0
  | .mrsSpsr _ _ => 0
  | .msrRegCpsr _ mask _ => maskBytes mask
  | .msrRegSpsr _ _ _ => 0
  | .msrImmCpsr _ mask _ _ => maskBytes mask
  | .msrImmSpsr _ _ _ _ => 0
  | .swp _ _ _ _ => 0
  | .swpb _ _ _ _ => 0
  | .ldrImmPre _ _ _ _ _ _ => 0
  | .ldrRegPre _ _ _ _ _ _ _ _ => 0
  | .ldrImmPost _ _ _ _ _ => 0
  | .ldrRegPost _ _ _ _ _ _ _ => 0
  | .ldrtImm _ _ _ _ _ => 0
  | .ldrtReg _ _ _ _ _ _ _ => 0
  | .strImmPre _ _ _ _ _ _ => 0
  | .strRegPre _ _ _ _ _ _ _ _ => 0
  | .strImmPost _ _ _ _ _ => 0
  | .strRegPost _ _ _ _ _ _ _ => 0
  | .strtImm _ _ _ _ _ => 0
  | .strtReg _ _ _ _ _ _ _ => 0
  | .ldrbImmPre _ _ _ _ _ _ => 0
  | .ldrbRegPre _ _ _ _ _ _ _ _ => 0
  | .ldrbImmPost _ _ _ _ _ => 0
  | .ldrbRegPost _ _ _ _ _ _ _ => 0
  | .ldrbtImm _ _ _ _ _ => 0
  | .ldrbtReg _ _ _ _ _ _ _ => 0
  | .strbImmPre _ _ _ _ _ _ => 0
  | .strbRegPre _ _ _ _ _ _ _ _ => 0
  | .strbImmPost _ _ _ _ _ => 0
  | .strbRegPost _ _ _ _ _ _ _ => 0
  | .strbtImm _ _ _ _ _ => 0
  | .strbtReg _ _ _ _ _ _ _ => 0
  | .strhImm _ _ _ _ _ _ _ _ => 0
  | .strhReg _ _ _ _ _ _ _ => 0
  | .ldrhImm _ _ _ _ _ _ _ _ => 0
  | .ldrhReg _ _ _ _ _ _ _ => 0
  | .ldrsbImm _ _ _ _ _ _ _ _ => 0
  | .ldrsbReg _ _ _ _ _ _ _ => 0
  | .ldrshImm _ _ _ _ _ _ _ _ => 0
  | .ldrshReg _ _ _ _ _ _ _ => 0
  | .stmia _ _ _ _ => 0
  | .stmib _ _ _ _ => 0
  | .stmda _ _ _ _ => 0
  | .stmdb _ _ _ _ => 0
  | .ldmia _ _ _ _ => 0
  | .ldmib _ _ _ _ => 0
  | .ldmda _ _ _ _ => 0
  | .ldmdb _ _ _ _ => 0
  | .stmiaUsr _ _ _ _ => 0
  | .stmibUsr _ _ _ _ => 0
  | .stmdaUsr _ _ _ _ => 0
  | .stmdbUsr _ _ _ _ => 0
  | .ldmiaRst _ _ _ _ => 0xFFFFFFFF
  | .ldmibRst _ _ _ _ => 0xFFFFFFFF
  | .ldmdaRst _ _ _ _ => 0xFFFFFFFF
  | .ldmdbRst _ _ _ _ => 0xFFFFFFFF
  | .swi _ _ => 0
  | .lslImmT _ _ _ => 0xE0000000
  | .lsrImmT _ _ _ => 0xE0000000
  | .asrImmT _ _ _ => 0xE0000000
  | .addRegT _ _ _ => 0xF0000000
  | .subRegT _ _ _ => 0xF0000000
  | .addImm3T _ _ _ => 0xF0000000
  | .subImm3T _ _ _ => 0xF0000000
  | .movImmT _ _ => 0xC0000000
  | .cmpImmT _ _ => 0xF0000000
  | .addImm8T _ _ => 0xF0000000
  | .subImm8T _ _ => 0xF0000000
  | .andT _ _ => 0xC0000000
  | .eorT _ _ => 0xC0000000
  | .lslRegT _ _ => 0xE0000000
  | .lsrRegT _ _ => 0xE0000000
  | .asrRegT _ _ => 0xE0000000
  | .adcT _ _ => 0xF0000000
  | .sbcT _ _ => 0xF0000000
  | .rorT _ _ => 0xE0000000
  | .tstT _ _ => 0xC0000000
  | .negT _ _ => 0xF0000000
  | .cmpRegT _ _ => 0xF0000000
  | .cmnT _ _ => 0xF0000000
  | .orrT _ _ => 0xC0000000
  | .mulT _ _ => 0xC0000000
  | .bicT _ _ => 0xC0000000
  | .mvnT _ _ => 0xC0000000
  | .addHiT _ _ _ _ => 0
  | .cmpHiT _ _ _ _ => 0xF0000000
  | .movHiT _ _ _ _ => 0
  | .bxT _ _ => 0x00000020
  | .bxH1T _ _ => 0
  | .ldrPcT _ _ => 0
  | .strRegT _ _ _ => 0
  | .strbRegT _ _ _ => 0
  | .ldrRegT _ _ _ => 0
  | .ldrbRegT _ _ _ => 0
  | .strhRegT _ _ _ => 0
  | .ldsbRegT _ _ _ => 0
  | .ldrhRegT _ _ _ => 0
  | .ldshRegT _ _ _ => 0
  | .strImmT _ _ _ => 0
  | .ldrImmT _ _ _ => 0
  | .strbImmT _ _ _ => 0
  | .ldrbImmT _ _ _ => 0
  | .strhImmT _ _ _ => 0
  | .ldrhImmT _ _ _ => 0
  | .strSpT _ _ => 0
  | .ldrSpT _ _ => 0
  | .addPcT _ _ => 0
  | .addSpT _ _ => 0
  | .addSpimmT _ => 0
  | .subSpimmT _ => 0
  | .pushT _ _ => 0
  | .popT _ _ => 0
  | .stmiaT _ _ => 0
  | .ldmiaT _ _ => 0
  | .beqT _ => 0
  | .bneT _ => 0
  | .bcsT _ => 0
  | .bccT _ => 0
  | .bmiT _ => 0
  | .bplT _ => 0
  | .bvsT _ => 0
  | .bvcT _ => 0
  | .bhiT _ => 0
  | .blsT _ => 0
  | .bgeT _ => 0
  | .bltT _ => 0
  | .bgtT _ => 0
  | .bleT _ => 0
  | .swiT _ => 0
  | .bT _ => 0
  | .blHiT _ => 0
  | .blLoT _ => 0

/-- Which accesses to the bus an instruction may make, its fetch apart. -/
inductive Accesses where
  | none | load | store | both
deriving DecidableEq, Repr

/-- The accesses of each instruction (20_memory.md R60, R80); a service may make both kinds (47_swi_and_undefined.md R307). -/
def accesses : Instr → Accesses
  | .andImm _ _ _ _ _ _ => .none
  | .andRsi _ _ _ _ _ _ _ => .none
  | .andRsr _ _ _ _ _ _ _ => .none
  | .eorImm _ _ _ _ _ _ => .none
  | .eorRsi _ _ _ _ _ _ _ => .none
  | .eorRsr _ _ _ _ _ _ _ => .none
  | .subImm _ _ _ _ _ _ => .none
  | .subRsi _ _ _ _ _ _ _ => .none
  | .subRsr _ _ _ _ _ _ _ => .none
  | .rsbImm _ _ _ _ _ _ => .none
  | .rsbRsi _ _ _ _ _ _ _ => .none
  | .rsbRsr _ _ _ _ _ _ _ => .none
  | .addImm _ _ _ _ _ _ => .none
  | .addRsi _ _ _ _ _ _ _ => .none
  | .addRsr _ _ _ _ _ _ _ => .none
  | .adcImm _ _ _ _ _ _ => .none
  | .adcRsi _ _ _ _ _ _ _ => .none
  | .adcRsr _ _ _ _ _ _ _ => .none
  | .sbcImm _ _ _ _ _ _ => .none
  | .sbcRsi _ _ _ _ _ _ _ => .none
  | .sbcRsr _ _ _ _ _ _ _ => .none
  | .rscImm _ _ _ _ _ _ => .none
  | .rscRsi _ _ _ _ _ _ _ => .none
  | .rscRsr _ _ _ _ _ _ _ => .none
  | .tstImm _ _ _ _ => .none
  | .tstRsi _ _ _ _ _ => .none
  | .tstRsr _ _ _ _ _ _ => .none
  | .teqImm _ _ _ _ => .none
  | .teqRsi _ _ _ _ _ => .none
  | .teqRsr _ _ _ _ _ _ => .none
  | .cmpImm _ _ _ _ => .none
  | .cmpRsi _ _ _ _ _ => .none
  | .cmpRsr _ _ _ _ _ _ => .none
  | .cmnImm _ _ _ _ => .none
  | .cmnRsi _ _ _ _ _ => .none
  | .cmnRsr _ _ _ _ _ _ => .none
  | .orrImm _ _ _ _ _ _ => .none
  | .orrRsi _ _ _ _ _ _ _ => .none
  | .orrRsr _ _ _ _ _ _ _ => .none
  | .movImm _ _ _ _ _ => .none
  | .movRsi _ _ _ _ _ _ => .none
  | .movRsr _ _ _ _ _ _ _ => .none
  | .bicImm _ _ _ _ _ _ => .none
  | .bicRsi _ _ _ _ _ _ _ => .none
  | .bicRsr _ _ _ _ _ _ _ => .none
  | .mvnImm _ _ _ _ _ => .none
  | .mvnRsi _ _ _ _ _ _ => .none
  | .mvnRsr _ _ _ _ _ _ _ => .none
  | .b _ _ => .none
  | .bl _ _ => .none
  | .bx _ _ => .none
  | .blxReg _ _ => .none
  | .mul _ _ _ _ _ => .none
  | .mla _ _ _ _ _ _ => .none
  | .umull _ _ _ _ _ _ => .none
  | .umlal _ _ _ _ _ _ => .none
  | .smull _ _ _ _ _ _ => .none
  | .smlal _ _ _ _ _ _ => .none
  | .umaal _ _ _ _ _ => .none
  | .smlaxy _ _ _ _ _ _ _ => .none
  | .smlawy _ _ _ _ _ _ => .none
  | .smulwy _ _ _ _ _ _ => .none
  | .smlalxy _ _ _ _ _ _ _ => .none
  | .smulxy _ _ _ _ _ _ => .none
  | .mrsCpsr _ _ => .none
  | .mrsSpsr _ _ => .none
  | .msrRegCpsr _ _ _ => .none
  | .msrRegSpsr _ _ _ => .none
  | .msrImmCpsr _ _ _ _ => .none
  | .msrImmSpsr _ _ _ _ => .none
  | .swp _ _ _ _ => .both
  | .swpb _ _ _ _ => .both
  | .ldrImmPre _ _ _ _ _ _ => .load
  | .ldrRegPre _ _ _ _ _ _ _ _ => .load
  | .ldrImmPost _ _ _ _ _ => .load
  | .ldrRegPost _ _ _ _ _ _ _ => .load
  | .ldrtImm _ _ _ _ _ => .load
  | .ldrtReg _ _ _ _ _ _ _ => .load
  | .strImmPre _ _ _ _ _ _ => .store
  | .strRegPre _ _ _ _ _ _ _ _ => .store
  | .strImmPost _ _ _ _ _ => .store
  | .strRegPost _ _ _ _ _ _ _ => .store
  | .strtImm _ _ _ _ _ => .store
  | .strtReg _ _ _ _ _ _ _ => .store
  | .ldrbImmPre _ _ _ _ _ _ => .load
  | .ldrbRegPre _ _ _ _ _ _ _ _ => .load
  | .ldrbImmPost _ _ _ _ _ => .load
  | .ldrbRegPost _ _ _ _ _ _ _ => .load
  | .ldrbtImm _ _ _ _ _ => .load
  | .ldrbtReg _ _ _ _ _ _ _ => .load
  | .strbImmPre _ _ _ _ _ _ => .store
  | .strbRegPre _ _ _ _ _ _ _ _ => .store
  | .strbImmPost _ _ _ _ _ => .store
  | .strbRegPost _ _ _ _ _ _ _ => .store
  | .strbtImm _ _ _ _ _ => .store
  | .strbtReg _ _ _ _ _ _ _ => .store
  | .strhImm _ _ _ _ _ _ _ _ => .store
  | .strhReg _ _ _ _ _ _ _ => .store
  | .ldrhImm _ _ _ _ _ _ _ _ => .load
  | .ldrhReg _ _ _ _ _ _ _ => .load
  | .ldrsbImm _ _ _ _ _ _ _ _ => .load
  | .ldrsbReg _ _ _ _ _ _ _ => .load
  | .ldrshImm _ _ _ _ _ _ _ _ => .load
  | .ldrshReg _ _ _ _ _ _ _ => .load
  | .stmia _ _ _ _ => .store
  | .stmib _ _ _ _ => .store
  | .stmda _ _ _ _ => .store
  | .stmdb _ _ _ _ => .store
  | .ldmia _ _ _ _ => .load
  | .ldmib _ _ _ _ => .load
  | .ldmda _ _ _ _ => .load
  | .ldmdb _ _ _ _ => .load
  | .stmiaUsr _ _ _ _ => .store
  | .stmibUsr _ _ _ _ => .store
  | .stmdaUsr _ _ _ _ => .store
  | .stmdbUsr _ _ _ _ => .store
  | .ldmiaRst _ _ _ _ => .load
  | .ldmibRst _ _ _ _ => .load
  | .ldmdaRst _ _ _ _ => .load
  | .ldmdbRst _ _ _ _ => .load
  | .swi _ _ => .both
  | .lslImmT _ _ _ => .none
  | .lsrImmT _ _ _ => .none
  | .asrImmT _ _ _ => .none
  | .addRegT _ _ _ => .none
  | .subRegT _ _ _ => .none
  | .addImm3T _ _ _ => .none
  | .subImm3T _ _ _ => .none
  | .movImmT _ _ => .none
  | .cmpImmT _ _ => .none
  | .addImm8T _ _ => .none
  | .subImm8T _ _ => .none
  | .andT _ _ => .none
  | .eorT _ _ => .none
  | .lslRegT _ _ => .none
  | .lsrRegT _ _ => .none
  | .asrRegT _ _ => .none
  | .adcT _ _ => .none
  | .sbcT _ _ => .none
  | .rorT _ _ => .none
  | .tstT _ _ => .none
  | .negT _ _ => .none
  | .cmpRegT _ _ => .none
  | .cmnT _ _ => .none
  | .orrT _ _ => .none
  | .mulT _ _ => .none
  | .bicT _ _ => .none
  | .mvnT _ _ => .none
  | .addHiT _ _ _ _ => .none
  | .cmpHiT _ _ _ _ => .none
  | .movHiT _ _ _ _ => .none
  | .bxT _ _ => .none
  | .bxH1T _ _ => .none
  | .ldrPcT _ _ => .load
  | .strRegT _ _ _ => .store
  | .strbRegT _ _ _ => .store
  | .ldrRegT _ _ _ => .load
  | .ldrbRegT _ _ _ => .load
  | .strhRegT _ _ _ => .store
  | .ldsbRegT _ _ _ => .load
  | .ldrhRegT _ _ _ => .load
  | .ldshRegT _ _ _ => .load
  | .strImmT _ _ _ => .store
  | .ldrImmT _ _ _ => .load
  | .strbImmT _ _ _ => .store
  | .ldrbImmT _ _ _ => .load
  | .strhImmT _ _ _ => .store
  | .ldrhImmT _ _ _ => .load
  | .strSpT _ _ => .store
  | .ldrSpT _ _ => .load
  | .addPcT _ _ => .none
  | .addSpT _ _ => .none
  | .addSpimmT _ => .none
  | .subSpimmT _ => .none
  | .pushT _ _ => .store
  | .popT _ _ => .load
  | .stmiaT _ _ => .store
  | .ldmiaT _ _ => .load
  | .beqT _ => .none
  | .bneT _ => .none
  | .bcsT _ => .none
  | .bccT _ => .none
  | .bmiT _ => .none
  | .bplT _ => .none
  | .bvsT _ => .none
  | .bvcT _ => .none
  | .bhiT _ => .none
  | .blsT _ => .none
  | .bgeT _ => .none
  | .bltT _ => .none
  | .bgtT _ => .none
  | .bleT _ => .none
  | .swiT _ => .both
  | .bT _ => .none
  | .blHiT _ => .none
  | .blLoT _ => .none

/-- The instruction may write memory. -/
def mayStore (i : Instr) : Bool := accesses i == .store || accesses i == .both

/-- The instruction may access the bus. -/
def mayAccess (i : Instr) : Bool := accesses i != .none

end Sys2Proof.Machine
end

