-- ==== Sys2Proof/Claims.lean ====
section
/-! DEFINITION. Claims.lean: the formulas that the statements of Certificates/Slice0/Obligations.lean use, written from the spec's rules
beside the machine's own, so that a statement compares two texts. Nothing in the machine reads them. -/
namespace Sys2Proof.Claims
open Sys2Proof Sys2Proof.Machine

/-! ### Status words -/

/-- A status word with N, Z, C and V replaced (10_state.md R30). -/
def withNZCV (v : Word) (n z c o : Bool) : Word :=
  (v &&& 0x0FFFFFFF#32) ||| put 32 31 (flagBits n) ||| put 32 30 (flagBits z) ||| put 32 29 (flagBits c) |||
    put 32 28 (flagBits o)

/-- A status word with T replaced. -/
def withThumb (v : Word) (t : Bool) : Word := (v &&& 0xFFFFFFDF#32) ||| put 32 5 (flagBits t)

/-- The CPSR of `s` with N and Z from a result, and the given C and V. -/
def flagsOf (s : State) (r : Word) (c o : Bool) : Word := withNZCV s.cpsr (r.getLsbD 31) (r == 0) c o

/-! ### Arithmetic (40_core_condition_shifter.md R160, R161; 42_arm_data_processing.md R210) -/

/-- An exact signed value that 32 bits do not hold. -/
def signedOut (i : Int) : Bool := decide (i < -2 ^ 31) || decide (2 ^ 31 ≤ i)

/-- `x + y + cin`: the result, the carry, the overflow. -/
def addOut (x y : Word) (cin : Bool) : Word × Bool × Bool :=
  (x + y + BitVec.ofNat 32 cin.toNat, decide (2 ^ 32 ≤ x.toNat + y.toNat + cin.toNat), signedOut (x.toInt + y.toInt + cin.toNat))

/-- `x - y - borrow`: the result, NOT borrow, the overflow. -/
def subOut (x y : Word) (borrow : Bool) : Word × Bool × Bool :=
  (x - y - BitVec.ofNat 32 borrow.toNat, decide (y.toNat + borrow.toNat ≤ x.toNat), signedOut (x.toInt - y.toInt - borrow.toNat))

/-- The summary R210 for the operations that write Rd: the result, C and V; `c` and `v` are the flags before, `shc` the shifter's
carry. -/
def dpOut (op : DpOp) (x y : Word) (shc c v : Bool) : Word × Bool × Bool :=
  match op with
  | .and => (x &&& y, shc, v)
  | .eor => (x ^^^ y, shc, v)
  | .sub => subOut x y false
  | .rsb => subOut y x false
  | .add => addOut x y false
  | .adc => addOut x y c
  | .sbc => subOut x y (!c)
  | .rsc => subOut y x (!c)
  | .orr => (x ||| y, shc, v)
  | .mov => (y, shc, v)
  | .bic => (x &&& ~~~y, shc, v)
  | .mvn => (~~~y, shc, v)

/-- The summary R210 for the comparisons. -/
def cmpOut (op : CmpOp) (x y : Word) (shc v : Bool) : Word × Bool × Bool :=
  match op with
  | .tst => (x &&& y, shc, v)
  | .teq => (x ^^^ y, shc, v)
  | .cmp => subOut x y false
  | .cmn => addOut x y false

/-- Operand 2 with the shifter's carry (R191). -/
def operand (s : State) : Operand2 → Word × Bool
  | .imm rot imm8 => immOperand rot imm8 s.flagC
  | .rsi n t rm => shiftImm t n (s.readReg rm) s.flagC
  | .rsr rs t rm => shiftReg t (s.readReg rs) (s.readReg rm) s.flagC

/-- The registers that an operation which writes Rd names beside operand 2: MOV and MVN ignore Rn (30_encoding.md R107). -/
def dpNamed (op : DpOp) (rn rd : Reg) : List Reg :=
  match op with
  | .mov => [rd]
  | .mvn => [rd]
  | _ => [rn, rd]

/-- A register-shift form names no R15 (R191): neither in operand 2 nor among the registers `named` beside it. -/
def operandOk (o : Operand2) (named : List Reg) : Bool :=
  match o with
  | .imm _ _ => true
  | .rsi _ _ _ => true
  | .rsr rs _ rm => rs != 15 && rm != 15 && named.all (· != 15)

/-! ### Memory (20_memory.md R64) -/

def byteAt (s : State) (a : Nat) : Byte := Memory.read s.mem a

def halfAt (s : State) (a : Nat) : Half :=
  if s.bigEndian then byteAt s a ++ byteAt s (a + 1) else byteAt s (a + 1) ++ byteAt s a

def wordAt (s : State) (a : Nat) : Word :=
  if s.bigEndian then byteAt s a ++ byteAt s (a + 1) ++ byteAt s (a + 2) ++ byteAt s (a + 3)
  else byteAt s (a + 3) ++ byteAt s (a + 2) ++ byteAt s (a + 1) ++ byteAt s a

/-- The bytes of a word, from the lowest address up. -/
def wordBytes (s : State) (v : Word) : List Byte :=
  if s.bigEndian then [v.extractLsb' 24 8, v.extractLsb' 16 8, v.extractLsb' 8 8, v.extractLsb' 0 8]
  else [v.extractLsb' 0 8, v.extractLsb' 8 8, v.extractLsb' 16 8, v.extractLsb' 24 8]

/-- The bytes of a word's low halfword. -/
def halfBytes (s : State) (v : Word) : List Byte :=
  if s.bigEndian then [v.extractLsb' 8 8, v.extractLsb' 0 8] else [v.extractLsb' 0 8, v.extractLsb' 8 8]

/-- The bytes of the low part of a word, by width. -/
def widthBytesOf (s : State) (w : Width) (v : Word) : List Byte :=
  match w with
  | .byte => [v.extractLsb' 0 8]
  | .half => halfBytes s v
  | .word => wordBytes s v

/-- Internal memory as a value of a width, zero-extended. -/
def valueAt (s : State) (w : Width) (a : Nat) : Word :=
  match w with
  | .byte => (byteAt s a).setWidth 32
  | .half => (halfAt s a).setWidth 32
  | .word => wordAt s a

/-- Memory after words are written from `a` up, four bytes apart. -/
def writeWords (s : State) (m : Memory) (a : Nat) : List Word → Memory
  | [] => m
  | v :: vs => writeWords s (Memory.writeBytes m a (wordBytes s v)) (a + 4) vs

/-- The `n` bytes from `a` lie in internal memory, which lies in the address space. -/
def inMemory (s : State) (a : Word) (n : Nat) : Prop := a.toNat + n ≤ s.cfg.memSize ∧ s.cfg.memSize ≤ 2 ^ 32

/-- A word that STR and STM store of R15 (45_arm_load_store.md R262). -/
def pcToStore (s : State) : Word := match s.cfg.storedPc with | .plus8 => s.pc + 8 | .plus12 => s.pc + 12

/-! ### Transfers (45_arm_load_store.md R260, R266; 46_arm_block_transfer.md R290) -/

/-- The base with the offset added or subtracted. -/
def moved (s : State) (u : Bool) (rn : Reg) (off : Word) : Word := if u then s.readReg rn + off else s.readReg rn - off

/-- The state with the PC advanced and the base written back, where it is. -/
def based (s : State) (back : Bool) (rn : Reg) (v : Word) : State := if back then s.advance.writeReg rn v else s.advance

def sdtOffset (s : State) : SdtOffset → Word
  | .imm n => n.setWidth 32
  | .reg n t rm => (shiftImm t n (s.readReg rm) s.flagC).1

def sdtPre : SdtIndex → Bool
  | .pre _ => true
  | .post => false
  | .t => false

def sdtBack : SdtIndex → Bool
  | .pre w => w
  | .post => true
  | .t => true

/-- The address of a single transfer. -/
def sdtAddr (s : State) (x : SdtIndex) (u : Bool) (rn : Reg) (o : SdtOffset) : Word :=
  if sdtPre x then moved s u rn (sdtOffset s o) else s.readReg rn

def halfOffset (s : State) : HalfOffset → Word
  | .imm hi lo => (hi ++ lo).setWidth 32
  | .reg rm => s.readReg rm

/-- The address of a halfword transfer. -/
def halfAddr (s : State) (p u : Bool) (rn : Reg) (o : HalfOffset) : Word :=
  if p then moved s u rn (halfOffset s o) else s.readReg rn

def halfLoadWidth : HalfLoad → Width
  | .ldrh => .half
  | .ldrsb => .byte
  | .ldrsh => .half

def halfLoadValue (s : State) (k : HalfLoad) (a : Nat) : Word :=
  match k with
  | .ldrh => (halfAt s a).setWidth 32
  | .ldrsb => (byteAt s a).signExtend 32
  | .ldrsh => (halfAt s a).signExtend 32

/-- The model's own address computation, as the meaning of a single transfer calls it. -/
def sdtResult (s : State) (x : SdtIndex) (u : Bool) (rn rd : Reg) (o : SdtOffset) : Result (Word × Option Word) :=
  s.sdtAddress (match o with | .imm n => sdtOffsetImm n | .reg n t rm => s.sdtOffsetReg n t rm)
    (sdtPre x) u (match x with | .pre w => w | .post => false | .t => true) rn rd

/-- The model's own address computation, as the meaning of a halfword transfer calls it. -/
def hdtResult (s : State) (p u w : Bool) (rn rd : Reg) (o : HalfOffset) : Result (Word × Option Word) :=
  s.hdtAddress (match o with | .imm hi lo => hdtOffsetImm hi lo | .reg rm => s.hdtOffsetReg rm) p u w rn rd

/-- The bytes `n` registers take. -/
def span (n : Nat) : Word := BitVec.ofNat 32 (4 * n)

/-- The lowest address of a block transfer of `n` registers (R290). -/
def blockLow (k : BlockMode) (base : Word) (n : Nat) : Word :=
  match k with
  | .ia => base
  | .ib => base + 4
  | .da => base - span n + 4
  | .db => base - span n

/-- The base after it (R290). -/
def blockBase (k : BlockMode) (base : Word) (n : Nat) : Word :=
  match k with
  | .ia => base + span n
  | .ib => base + span n
  | .da => base - span n
  | .db => base - span n

/-- What a block load leaves: word `j` in the j-th register of the list, in the view `b`, and every register that is not among
`changed` as it was. -/
def loaded (s t : State) (b : Bank) (regs : List Reg) (a : Nat) (changed : List Reg) : Prop :=
  (∀ (j : Nat) (h : j < regs.length), regs[j] ≠ 15 → t.readIn b regs[j] = wordAt s (a + 4 * j)) ∧
  ∀ p : PhysReg, (∀ r ∈ changed, physReg b r ≠ some p) → t.readPhys p = s.readPhys p

/-! ### What follows an access (45_arm_load_store.md R277; 46_arm_block_transfer.md R290; 20_memory.md R73) -/

/-- The outcome after an access: its fault, or the one that its answer gives. -/
def after {α : Type} (r : Result α) (k : α → Host.Outcome State Fault Refusal) : Host.Outcome State Fault Refusal :=
  match r with
  | .ok x => k x
  | .error f => .fault f

/-- A value loaded to the PC in ARM state: a branch to a word-aligned address, and a fault for any other (40_core_condition_shifter.md
R166). -/
def branched (t : State) (v : Word) : Host.Outcome State Fault Refusal :=
  if v.toNat % 4 = 0 then .next { t with pc := v } else .fault (.unpredictable .unalignedPcWrite)

def halfLoadKind : HalfLoad → LoadKind
  | .ldrh => .half
  | .ldrsb => .signedByte
  | .ldrsh => .signedHalf

/-- The first address of a block transfer under the policy, or its fault (R73). -/
def blockFrom (s : State) (a : Word) : Result Word :=
  if a.toNat % 4 = 0 then .ok a
  else match s.cfg.misalign with
    | .fault => .error (.misaligned a .word)
    | .arm7 => if s.bigEndian then .error (.misaligned a .word) else .ok (BitVec.ofNat 32 (a.toNat - a.toNat % 4))
    | .plainBytes => .ok a

/-- The word at `a + 4k` read, after the words `x.1` and in the state `x.2` that they left. -/
def wordRead (a : Word) (x : List Word × State) (k : Nat) : Result (List Word × State) :=
  (x.2.memRead (a + span k) .word).map fun y => (x.1 ++ [y.1], y.2)

/-- The words at `a + 4k`, for k from 0 up (R290), each one access of the bus: the values, and the state after the last. -/
def wordsRead (s : State) (a : Word) (n : Nat) : Result (List Word × State) := (List.range n).foldlM (wordRead a) ([], s)

/-- The k-th word written at `a + 4k`, for k from 0 up (R290), each one access of the bus. -/
def wordsWritten (s : State) (a : Word) (vs : List Word) : Result State :=
  (List.range vs.length).foldlM (fun (t : State) k => t.memWrite (a + span k) .word (vs.getD k 0)) s

/-- The values in the registers of the list, in its order; R15 is not written here (R292). -/
def regsWritten (t : State) (regs : List Reg) (vs : List Word) : State :=
  (regs.zip vs).foldl (fun (t : State) x => t.writeReg x.1 x.2) t

/-- The value of R15, which is always the last register of a list that has it (R292). -/
def lastOf (vs : List Word) : Word := vs.getLastD 0

/-- A loaded value extended to 32 bits (20_memory.md R80). -/
def extended (k : LoadKind) (v : Word) : Word :=
  match k with
  | .word => v
  | .half => (v.extractLsb' 0 16).setWidth 32
  | .signedHalf => (v.extractLsb' 0 16).signExtend 32
  | .byte => (v.extractLsb' 0 8).setWidth 32
  | .signedByte => (v.extractLsb' 0 8).signExtend 32

/-- An address with its low bits cleared, to a multiple of the width. -/
def down (w : Width) (a : Word) : Word := BitVec.ofNat 32 (a.toNat - a.toNat % widthBytes w)

/-- Where a store under the alignment policy goes (20_memory.md R70 to R72). -/
def storedAt (s : State) (w : Width) (a : Word) : Word :=
  if misaligned w a ∧ s.cfg.misalign = .arm7 then alignDown w a else a

/-- Every byte outside the `n` bytes at `a` reads as before. -/
def onlyBytes (s t : State) (a : Word) (n : Nat) : Prop :=
  ∀ c, (c < a.toNat ∨ a.toNat + n ≤ c) → Memory.read t.mem c = Memory.read s.mem c

/-- Every byte outside the `n` words from `a` up reads as before. -/
def onlyWords (s t : State) (a : Word) (n : Nat) : Prop :=
  ∀ c, (∀ k < n, c < (a + span k).toNat ∨ (a + span k).toNat + 4 ≤ c) → Memory.read t.mem c = Memory.read s.mem c

/-! ### Multiplies (43_arm_multiply.md) -/

/-- The 64-bit result of a long multiply (R233 to R236). -/
def longOut (op : LongMulOp) (x y hi lo : Word) : BitVec 64 :=
  match op with
  | .umull => BitVec.ofNat 64 (x.toNat * y.toNat)
  | .umlal => BitVec.ofNat 64 (x.toNat * y.toNat + (hi.toNat * 2 ^ 32 + lo.toNat))
  | .smull => BitVec.ofInt 64 (x.toInt * y.toInt)
  | .smlal => BitVec.ofInt 64 (x.toInt * y.toInt + (hi.toNat * 2 ^ 32 + lo.toNat : Nat))

/-- N after a long multiply with S (R230). -/
def longN (op : LongMulOp) (r : BitVec 64) (n : Bool) : Bool :=
  match op with
  | .umull => n
  | .umlal => n
  | .smull => r.getLsbD 63
  | .smlal => r.getLsbD 63

/-- A 64-bit result in a register pair. -/
def pairWritten (s : State) (rdHi rdLo : Reg) (r : BitVec 64) : State :=
  (s.advance.writeReg rdHi ((r >>> 32).setWidth 32)).writeReg rdLo (r.setWidth 32)

/-- A 16-bit half as a signed number. -/
def halfInt (top : Bool) (v : Word) : Int := if top then (v.extractLsb' 16 16).toInt else (v.extractLsb' 0 16).toInt

/-! ### Services (47_swi_and_undefined.md R300) -/

/-- `i` is a SWI that executes in `s`, and its service number is `svc`. -/
def serviceIs (s : State) (i : Instr) (svc : Word) : Prop :=
  match i with
  | .swi c comment =>
    s.condPassed c = true ∧
    svc = (match s.cfg.swiNumber with
      | .register k => s.readReg (k.castLE (by decide))
      | .commentField => (comment.extractLsb' 16 8).setWidth 32
      | .unspecified => Config.swiNumberFn s (.swi c comment))
  | .swiT value8 =>
    svc = (match s.cfg.swiNumber with
      | .register k => s.readReg (k.castLE (by decide))
      | .commentField => value8.setWidth 32
      | .unspecified => Config.swiNumberFn s (.swiT value8))
  | _ => False

/-! ### Thumb (48_thumb_data_ops.md, 49_thumb_load_store_branch.md) -/

/-- A format 4 operation on Rd = `x` and Rs = `y`: whether Rd is written, the result, C and V (R320, R332 to R347). -/
def aluTOut (op : AluOpT) (x y : Word) (c v : Bool) : Bool × Word × Bool × Bool :=
  match op with
  | .and => (true, x &&& y, c, v)
  | .eor => (true, x ^^^ y, c, v)
  | .lsl => (true, (shiftReg .lsl y x c).1, (shiftReg .lsl y x c).2, v)
  | .lsr => (true, (shiftReg .lsr y x c).1, (shiftReg .lsr y x c).2, v)
  | .asr => (true, (shiftReg .asr y x c).1, (shiftReg .asr y x c).2, v)
  | .adc => (true, addOut x y c)
  | .sbc => (true, subOut x y (!c))
  | .ror => (true, (shiftReg .ror y x c).1, (shiftReg .ror y x c).2, v)
  | .tst => (false, x &&& y, c, v)
  | .neg => (true, subOut 0 y false)
  | .cmp => (false, subOut x y false)
  | .cmn => (false, addOut x y false)
  | .orr => (true, x ||| y, c, v)
  | .mul => (true, BitVec.ofNat 32 (x.toNat * y.toNat), c, v)
  | .bic => (true, x &&& ~~~y, c, v)
  | .mvn => (true, ~~~y, c, v)

/-- A result written to a low register with the flags of `r`, C and V. -/
def lowWritten (s : State) (rd : LowReg) (r : Word × Bool × Bool) : State :=
  { s.advance.writeReg rd.reg r.1 with cpsr := flagsOf s r.1 r.2.1 r.2.2 }

/-- The flags of a result alone. -/
def flagsWritten (s : State) (r : Word × Bool × Bool) : State :=
  { s.advance with cpsr := flagsOf s r.1 r.2.1 r.2.2 }

/-- The word-aligned PC of Thumb (R353, R360). -/
def pcWordT (s : State) : Word := (s.pc + 4) &&& 0xFFFFFFFC#32

/-- The width, the address and the extended value of a Thumb load (R360 to R376). -/
def loadTWidth : LoadT → Nat
  | .pc _ => 4 | .sp _ => 4 | .wordReg _ _ => 4 | .byteReg _ _ => 1 | .halfReg _ _ => 2
  | .signedByteReg _ _ => 1 | .signedHalfReg _ _ => 2 | .wordImm _ _ => 4 | .byteImm _ _ => 1 | .halfImm _ _ => 2

def loadTKind : LoadT → LoadKind
  | .pc _ => .word | .sp _ => .word | .wordReg _ _ => .word | .byteReg _ _ => .byte | .halfReg _ _ => .half
  | .signedByteReg _ _ => .signedByte | .signedHalfReg _ _ => .signedHalf | .wordImm _ _ => .word | .byteImm _ _ => .byte
  | .halfImm _ _ => .half

def loadTAddr (s : State) : LoadT → Word
  | .pc n => pcWordT s + BitVec.ofNat 32 (n.toNat * 4)
  | .sp n => s.readReg 13 + BitVec.ofNat 32 (n.toNat * 4)
  | .wordReg ro rb => s.readReg rb.reg + s.readReg ro.reg
  | .byteReg ro rb => s.readReg rb.reg + s.readReg ro.reg
  | .halfReg ro rb => s.readReg rb.reg + s.readReg ro.reg
  | .signedByteReg ro rb => s.readReg rb.reg + s.readReg ro.reg
  | .signedHalfReg ro rb => s.readReg rb.reg + s.readReg ro.reg
  | .wordImm n rb => s.readReg rb.reg + BitVec.ofNat 32 (n.toNat * 4)
  | .byteImm n rb => s.readReg rb.reg + BitVec.ofNat 32 n.toNat
  | .halfImm n rb => s.readReg rb.reg + BitVec.ofNat 32 (n.toNat * 2)

def loadTValue (s : State) (a : Nat) : LoadT → Word
  | .pc _ => wordAt s a
  | .sp _ => wordAt s a
  | .wordReg _ _ => wordAt s a
  | .byteReg _ _ => (byteAt s a).setWidth 32
  | .halfReg _ _ => (halfAt s a).setWidth 32
  | .signedByteReg _ _ => (byteAt s a).signExtend 32
  | .signedHalfReg _ _ => (halfAt s a).signExtend 32
  | .wordImm _ _ => wordAt s a
  | .byteImm _ _ => (byteAt s a).setWidth 32
  | .halfImm _ _ => (halfAt s a).setWidth 32

def storeTWidth : StoreT → Width
  | .sp _ => .word | .wordReg _ _ => .word | .byteReg _ _ => .byte | .halfReg _ _ => .half
  | .wordImm _ _ => .word | .byteImm _ _ => .byte | .halfImm _ _ => .half

def storeTAddr (s : State) : StoreT → Word
  | .sp n => s.readReg 13 + BitVec.ofNat 32 (n.toNat * 4)
  | .wordReg ro rb => s.readReg rb.reg + s.readReg ro.reg
  | .byteReg ro rb => s.readReg rb.reg + s.readReg ro.reg
  | .halfReg ro rb => s.readReg rb.reg + s.readReg ro.reg
  | .wordImm n rb => s.readReg rb.reg + BitVec.ofNat 32 (n.toNat * 4)
  | .byteImm n rb => s.readReg rb.reg + BitVec.ofNat 32 n.toNat
  | .halfImm n rb => s.readReg rb.reg + BitVec.ofNat 32 (n.toNat * 2)

/-- The list of PUSH or POP: low registers from R0 up, then LR or PC (R377, R378). -/
def stackList (list : BitVec 8) (r : Bool) (last : Reg) : List Reg := if r then regsOf list ++ [last] else regsOf list

/-! ### Channels (20_memory.md R74 to R76) -/

/-- The channels whose range covers an address, in registration order. -/
def covering (s : State) (a : Word) : List Channel :=
  s.channels.filter fun c => decide (c.base ≤ a.toNat ∧ a.toNat < c.base + c.range)

/-! ### The forms that are not admitted (60_exceptions.md R405, R406) -/

/-- A field names R15. -/
def anyPc (l : List Reg) : Bool := l.any (· == 15)

/-- The first fault whose condition holds: the order is that of the rule's checks (R406). -/
def firstOf : List (Bool × Fault) → Option Fault
  | [] => none
  | (b, f) :: rest => if b then some f else firstOf rest

/-- The register checks of a single transfer, in order (45_arm_load_store.md R260). -/
def sdtTags (pcOffset back : Bool) (rn rd : Reg) : List (Bool × Fault) :=
  [(pcOffset, .unpredictable .sdtPcOffset), (back && rn == 15, .unpredictable .sdtPcWriteback),
    (back && rn == rd, .unpredictable .sdtBaseIsRd)]

/-- The register checks of a halfword transfer, in order (R266). -/
def hdtTags (pcOffset p w : Bool) (rn rd : Reg) : List (Bool × Fault) :=
  [(pcOffset, .unpredictable .hdtPcOffset), (!p && w, .unpredictable .hdtPostWriteback),
    ((!p || w) && rn == 15, .unpredictable .hdtPcWriteback), ((!p || w) && rn == rd, .unpredictable .hdtBaseIsRd)]

/-- The checks of a block transfer's addressing, in order (46_arm_block_transfer.md R290). -/
def blockTags (rn : Reg) (list : BitVec 16) : List (Bool × Fault) :=
  [(list == 0, .unpredictable .emptyList), (rn == 15, .unpredictable .blockPcBase)]

/-- The base is in the list and is not the lowest register there (R291; 49_thumb_load_store_branch.md R379). -/
def notLowest {n : Nat} (list : BitVec n) (base : Nat) : Bool := list.getLsbD base && list.setWidth base != 0

/-- The fault of a form, by R405's table: none where its fields and the mode raise none. -/
def formFault (s : State) : Instr → Option Fault
  | .andImm _ _ _ _ _ _ => none
  | .andRsi _ _ _ _ _ _ _ => none
  | .andRsr _ _ rn rd rs _ rm => firstOf [(anyPc [rn, rd, rs, rm], .unpredictable .dpRegShiftPc)]
  | .eorImm _ _ _ _ _ _ => none
  | .eorRsi _ _ _ _ _ _ _ => none
  | .eorRsr _ _ rn rd rs _ rm => firstOf [(anyPc [rn, rd, rs, rm], .unpredictable .dpRegShiftPc)]
  | .subImm _ _ _ _ _ _ => none
  | .subRsi _ _ _ _ _ _ _ => none
  | .subRsr _ _ rn rd rs _ rm => firstOf [(anyPc [rn, rd, rs, rm], .unpredictable .dpRegShiftPc)]
  | .rsbImm _ _ _ _ _ _ => none
  | .rsbRsi _ _ _ _ _ _ _ => none
  | .rsbRsr _ _ rn rd rs _ rm => firstOf [(anyPc [rn, rd, rs, rm], .unpredictable .dpRegShiftPc)]
  | .addImm _ _ _ _ _ _ => none
  | .addRsi _ _ _ _ _ _ _ => none
  | .addRsr _ _ rn rd rs _ rm => firstOf [(anyPc [rn, rd, rs, rm], .unpredictable .dpRegShiftPc)]
  | .adcImm _ _ _ _ _ _ => none
  | .adcRsi _ _ _ _ _ _ _ => none
  | .adcRsr _ _ rn rd rs _ rm => firstOf [(anyPc [rn, rd, rs, rm], .unpredictable .dpRegShiftPc)]
  | .sbcImm _ _ _ _ _ _ => none
  | .sbcRsi _ _ _ _ _ _ _ => none
  | .sbcRsr _ _ rn rd rs _ rm => firstOf [(anyPc [rn, rd, rs, rm], .unpredictable .dpRegShiftPc)]
  | .rscImm _ _ _ _ _ _ => none
  | .rscRsi _ _ _ _ _ _ _ => none
  | .rscRsr _ _ rn rd rs _ rm => firstOf [(anyPc [rn, rd, rs, rm], .unpredictable .dpRegShiftPc)]
  | .tstImm _ _ _ _ => none
  | .tstRsi _ _ _ _ _ => none
  | .tstRsr _ rn _ rs _ rm => firstOf [(anyPc [rn, rs, rm], .unpredictable .dpRegShiftPc)]
  | .teqImm _ _ _ _ => none
  | .teqRsi _ _ _ _ _ => none
  | .teqRsr _ rn _ rs _ rm => firstOf [(anyPc [rn, rs, rm], .unpredictable .dpRegShiftPc)]
  | .cmpImm _ _ _ _ => none
  | .cmpRsi _ _ _ _ _ => none
  | .cmpRsr _ rn _ rs _ rm => firstOf [(anyPc [rn, rs, rm], .unpredictable .dpRegShiftPc)]
  | .cmnImm _ _ _ _ => none
  | .cmnRsi _ _ _ _ _ => none
  | .cmnRsr _ rn _ rs _ rm => firstOf [(anyPc [rn, rs, rm], .unpredictable .dpRegShiftPc)]
  | .orrImm _ _ _ _ _ _ => none
  | .orrRsi _ _ _ _ _ _ _ => none
  | .orrRsr _ _ rn rd rs _ rm => firstOf [(anyPc [rn, rd, rs, rm], .unpredictable .dpRegShiftPc)]
  | .movImm _ _ _ _ _ => none
  | .movRsi _ _ _ _ _ _ => none
  | .movRsr _ _ _ rd rs _ rm => firstOf [(anyPc [rd, rs, rm], .unpredictable .dpRegShiftPc)]
  | .bicImm _ _ _ _ _ _ => none
  | .bicRsi _ _ _ _ _ _ _ => none
  | .bicRsr _ _ rn rd rs _ rm => firstOf [(anyPc [rn, rd, rs, rm], .unpredictable .dpRegShiftPc)]
  | .mvnImm _ _ _ _ _ => none
  | .mvnRsi _ _ _ _ _ _ => none
  | .mvnRsr _ _ _ rd rs _ rm => firstOf [(anyPc [rd, rs, rm], .unpredictable .dpRegShiftPc)]
  | .b _ _ => none
  | .bl _ _ => none
  | .bx _ _ => none
  | .blxReg _ rm => firstOf [(anyPc [rm], .unpredictable .blxPc)]
  | .mul _ _ rd rs rm => firstOf [(anyPc [rd, rs, rm] || rd == rm, .unpredictable .mulRegs)]
  | .mla _ _ rd rn rs rm => firstOf [(anyPc [rd, rn, rs, rm] || rd == rm, .unpredictable .mulRegs)]
  | .umull _ _ rdHi rdLo rs rm => firstOf [(anyPc [rdHi, rdLo, rs, rm] || rdHi == rdLo || rdHi == rm || rdLo == rm, .unpredictable .mulLongRegs)]
  | .umlal _ _ rdHi rdLo rs rm => firstOf [(anyPc [rdHi, rdLo, rs, rm] || rdHi == rdLo || rdHi == rm || rdLo == rm, .unpredictable .mulLongRegs)]
  | .smull _ _ rdHi rdLo rs rm => firstOf [(anyPc [rdHi, rdLo, rs, rm] || rdHi == rdLo || rdHi == rm || rdLo == rm, .unpredictable .mulLongRegs)]
  | .smlal _ _ rdHi rdLo rs rm => firstOf [(anyPc [rdHi, rdLo, rs, rm] || rdHi == rdLo || rdHi == rm || rdLo == rm, .unpredictable .mulLongRegs)]
  | .umaal _ rdHi rdLo rs rm => firstOf [(anyPc [rdHi, rdLo, rs, rm] || rdHi == rdLo, .unpredictable .mulLongRegs)]
  | .smlaxy _ _ _ _ _ _ _ => some (.unmodelled .smlaxy)
  | .smlawy _ rd rn rs _ rm => firstOf [(anyPc [rd, rn, rs, rm], .unpredictable .mulHalfPc)]
  | .smulwy _ _ _ _ _ _ => some (.unmodelled .smulwy)
  | .smlalxy _ rdHi rdLo rs _ _ rm => firstOf [(anyPc [rdHi, rdLo, rs, rm] || rdHi == rdLo, .unpredictable .mulLongRegs)]
  | .smulxy _ rd rs _ _ rm => firstOf [(anyPc [rd, rs, rm], .unpredictable .mulHalfPc)]
  | .mrsCpsr _ rd => firstOf [(anyPc [rd], .unpredictable .mrsPc)]
  | .mrsSpsr _ rd => firstOf [(anyPc [rd], .unpredictable .mrsPc)]
  | .msrRegCpsr _ _ rm => firstOf [(anyPc [rm], .unpredictable .msrPc)]
  | .msrRegSpsr _ _ rm => firstOf [(anyPc [rm], .unpredictable .msrPc)]
  | .msrImmCpsr _ _ _ _ => none
  | .msrImmSpsr _ _ _ _ => none
  | .swp _ rn rd rm => firstOf [(anyPc [rd, rm, rn] || rn == rd || rn == rm, .unpredictable .swpRegs)]
  | .swpb _ rn rd rm => firstOf [(anyPc [rd, rm, rn] || rn == rd || rn == rm, .unpredictable .swpRegs)]
  | .ldrImmPre _ _ w rn rd _ => firstOf (sdtTags false w rn rd)
  | .ldrRegPre _ _ w rn rd _ _ rm => firstOf (sdtTags (anyPc [rm]) w rn rd)
  | .ldrImmPost _ _ rn rd _ => firstOf (sdtTags false true rn rd)
  | .ldrRegPost _ _ rn rd _ _ rm => firstOf (sdtTags (anyPc [rm]) true rn rd)
  | .ldrtImm _ _ rn rd _ => firstOf (sdtTags false true rn rd)
  | .ldrtReg _ _ rn rd _ _ rm => firstOf (sdtTags (anyPc [rm]) true rn rd)
  | .strImmPre _ _ w rn rd _ => firstOf (sdtTags false w rn rd)
  | .strRegPre _ _ w rn rd _ _ rm => firstOf (sdtTags (anyPc [rm]) w rn rd)
  | .strImmPost _ _ rn rd _ => firstOf (sdtTags false true rn rd)
  | .strRegPost _ _ rn rd _ _ rm => firstOf (sdtTags (anyPc [rm]) true rn rd)
  | .strtImm _ _ rn rd _ => firstOf (sdtTags false true rn rd)
  | .strtReg _ _ rn rd _ _ rm => firstOf (sdtTags (anyPc [rm]) true rn rd)
  | .ldrbImmPre _ _ w rn rd _ => firstOf ((anyPc [rd], .unpredictable .ldrbPc) :: sdtTags false w rn rd)
  | .ldrbRegPre _ _ w rn rd _ _ rm => firstOf ((anyPc [rd], .unpredictable .ldrbPc) :: sdtTags (anyPc [rm]) w rn rd)
  | .ldrbImmPost _ _ rn rd _ => firstOf ((anyPc [rd], .unpredictable .ldrbPc) :: sdtTags false true rn rd)
  | .ldrbRegPost _ _ rn rd _ _ rm => firstOf ((anyPc [rd], .unpredictable .ldrbPc) :: sdtTags (anyPc [rm]) true rn rd)
  | .ldrbtImm _ _ rn rd _ => firstOf ((anyPc [rd], .unpredictable .ldrbPc) :: sdtTags false true rn rd)
  | .ldrbtReg _ _ rn rd _ _ rm => firstOf ((anyPc [rd], .unpredictable .ldrbPc) :: sdtTags (anyPc [rm]) true rn rd)
  | .strbImmPre _ _ w rn rd _ => firstOf ((anyPc [rd], .unpredictable .strbPc) :: sdtTags false w rn rd)
  | .strbRegPre _ _ w rn rd _ _ rm => firstOf ((anyPc [rd], .unpredictable .strbPc) :: sdtTags (anyPc [rm]) w rn rd)
  | .strbImmPost _ _ rn rd _ => firstOf ((anyPc [rd], .unpredictable .strbPc) :: sdtTags false true rn rd)
  | .strbRegPost _ _ rn rd _ _ rm => firstOf ((anyPc [rd], .unpredictable .strbPc) :: sdtTags (anyPc [rm]) true rn rd)
  | .strbtImm _ _ rn rd _ => firstOf ((anyPc [rd], .unpredictable .strbPc) :: sdtTags false true rn rd)
  | .strbtReg _ _ rn rd _ _ rm => firstOf ((anyPc [rd], .unpredictable .strbPc) :: sdtTags (anyPc [rm]) true rn rd)
  | .strhImm _ p _ w rn rd _ _ => firstOf ((anyPc [rd], .unpredictable .strhPc) :: hdtTags false p w rn rd)
  | .strhReg _ p _ w rn rd rm => firstOf ((anyPc [rd], .unpredictable .strhPc) :: hdtTags (anyPc [rm]) p w rn rd)
  | .ldrhImm _ p _ w rn rd _ _ => firstOf ((anyPc [rd], .unpredictable .hdtLoadPc) :: hdtTags false p w rn rd)
  | .ldrhReg _ p _ w rn rd rm => firstOf ((anyPc [rd], .unpredictable .hdtLoadPc) :: hdtTags (anyPc [rm]) p w rn rd)
  | .ldrsbImm _ p _ w rn rd _ _ => firstOf ((anyPc [rd], .unpredictable .hdtLoadPc) :: hdtTags false p w rn rd)
  | .ldrsbReg _ p _ w rn rd rm => firstOf ((anyPc [rd], .unpredictable .hdtLoadPc) :: hdtTags (anyPc [rm]) p w rn rd)
  | .ldrshImm _ p _ w rn rd _ _ => firstOf ((anyPc [rd], .unpredictable .hdtLoadPc) :: hdtTags false p w rn rd)
  | .ldrshReg _ p _ w rn rd rm => firstOf ((anyPc [rd], .unpredictable .hdtLoadPc) :: hdtTags (anyPc [rm]) p w rn rd)
  | .stmia _ w rn list => firstOf (blockTags rn list ++ [(w && notLowest list rn.val, .unpredictable .stmWritebackBase)])
  | .stmib _ w rn list => firstOf (blockTags rn list ++ [(w && notLowest list rn.val, .unpredictable .stmWritebackBase)])
  | .stmda _ w rn list => firstOf (blockTags rn list ++ [(w && notLowest list rn.val, .unpredictable .stmWritebackBase)])
  | .stmdb _ w rn list => firstOf (blockTags rn list ++ [(w && notLowest list rn.val, .unpredictable .stmWritebackBase)])
  | .ldmia _ w rn list => firstOf (blockTags rn list ++ [(w && list.getLsbD rn.val, .unpredictable .ldmWritebackBase)])
  | .ldmib _ w rn list => firstOf (blockTags rn list ++ [(w && list.getLsbD rn.val, .unpredictable .ldmWritebackBase)])
  | .ldmda _ w rn list => firstOf (blockTags rn list ++ [(w && list.getLsbD rn.val, .unpredictable .ldmWritebackBase)])
  | .ldmdb _ w rn list => firstOf (blockTags rn list ++ [(w && list.getLsbD rn.val, .unpredictable .ldmWritebackBase)])
  | .stmiaUsr _ w rn list => firstOf ((s.spsr?.isNone, .unpredictable .userBankInUserMode) :: (w, .unpredictable .userBankWriteback) :: blockTags rn list)
  | .stmibUsr _ w rn list => firstOf ((s.spsr?.isNone, .unpredictable .userBankInUserMode) :: (w, .unpredictable .userBankWriteback) :: blockTags rn list)
  | .stmdaUsr _ w rn list => firstOf ((s.spsr?.isNone, .unpredictable .userBankInUserMode) :: (w, .unpredictable .userBankWriteback) :: blockTags rn list)
  | .stmdbUsr _ w rn list => firstOf ((s.spsr?.isNone, .unpredictable .userBankInUserMode) :: (w, .unpredictable .userBankWriteback) :: blockTags rn list)
  | .ldmiaRst _ w rn list => firstOf ((s.spsr?.isNone, .noSpsr) :: blockTags rn list ++ [(w && list.getLsbD rn.val, .unpredictable .ldmWritebackBase)])
  | .ldmibRst _ w rn list => firstOf ((s.spsr?.isNone, .noSpsr) :: blockTags rn list ++ [(w && list.getLsbD rn.val, .unpredictable .ldmWritebackBase)])
  | .ldmdaRst _ w rn list => firstOf ((s.spsr?.isNone, .noSpsr) :: blockTags rn list ++ [(w && list.getLsbD rn.val, .unpredictable .ldmWritebackBase)])
  | .ldmdbRst _ w rn list => firstOf ((s.spsr?.isNone, .noSpsr) :: blockTags rn list ++ [(w && list.getLsbD rn.val, .unpredictable .ldmWritebackBase)])
  | .swi _ _ => none
  | .lslImmT _ _ _ => none
  | .lsrImmT _ _ _ => none
  | .asrImmT _ _ _ => none
  | .addRegT _ _ _ => none
  | .subRegT _ _ _ => none
  | .addImm3T _ _ _ => none
  | .subImm3T _ _ _ => none
  | .movImmT _ _ => none
  | .cmpImmT _ _ => none
  | .addImm8T _ _ => none
  | .subImm8T _ _ => none
  | .andT _ _ => none
  | .eorT _ _ => none
  | .lslRegT _ _ => none
  | .lsrRegT _ _ => none
  | .asrRegT _ _ => none
  | .adcT _ _ => none
  | .sbcT _ _ => none
  | .rorT _ _ => none
  | .tstT _ _ => none
  | .negT _ _ => none
  | .cmpRegT _ _ => none
  | .cmnT _ _ => none
  | .orrT _ _ => none
  | .mulT rs rd => firstOf [(rd == rs, .unpredictable .thumbMulRegs)]
  | .bicT _ _ => none
  | .mvnT _ _ => none
  | .addHiT h1 h2 _ _ => firstOf [(!h1 && !h2, .unpredictable .hiRegLowLow)]
  | .cmpHiT h1 h2 _ _ => firstOf [(!h1 && !h2, .unpredictable .hiRegLowLow)]
  | .movHiT h1 h2 _ _ => firstOf [(!h1 && !h2, .unpredictable .hiRegLowLow)]
  | .bxT _ _ => none
  | .bxH1T _ _ => some (.unpredictable .thumbBxH1)
  | .ldrPcT _ _ => none
  | .strRegT _ _ _ => none
  | .strbRegT _ _ _ => none
  | .ldrRegT _ _ _ => none
  | .ldrbRegT _ _ _ => none
  | .strhRegT _ _ _ => none
  | .ldsbRegT _ _ _ => none
  | .ldrhRegT _ _ _ => none
  | .ldshRegT _ _ _ => none
  | .strImmT _ _ _ => none
  | .ldrImmT _ _ _ => none
  | .strbImmT _ _ _ => none
  | .ldrbImmT _ _ _ => none
  | .strhImmT _ _ _ => none
  | .ldrhImmT _ _ _ => none
  | .strSpT _ _ => none
  | .ldrSpT _ _ => none
  | .addPcT _ _ => none
  | .addSpT _ _ => none
  | .addSpimmT _ => none
  | .subSpimmT _ => none
  | .pushT r list => firstOf [(list == 0 && !r, .unpredictable .emptyList)]
  | .popT r list => firstOf [(list == 0 && !r, .unpredictable .emptyList)]
  | .stmiaT rb list => firstOf [(list == 0, .unpredictable .emptyList), (notLowest list rb.val, .unpredictable .stmWritebackBase)]
  | .ldmiaT rb list => firstOf [(list == 0, .unpredictable .emptyList), (list.getLsbD rb.val, .unpredictable .ldmWritebackBase)]
  | .beqT _ => none
  | .bneT _ => none
  | .bcsT _ => none
  | .bccT _ => none
  | .bmiT _ => none
  | .bplT _ => none
  | .bvsT _ => none
  | .bvcT _ => none
  | .bhiT _ => none
  | .blsT _ => none
  | .bgeT _ => none
  | .bltT _ => none
  | .bgtT _ => none
  | .bleT _ => none
  | .swiT _ => none
  | .bT _ => none
  | .blHiT _ => none
  | .blLoT _ => none

end Sys2Proof.Claims
end

