-- ==== Sys2Proof/Machine/Host.lean ====
section
/-! DEFINITION. Machine/Host.lean: what the host may do between steps (60_exceptions.md R425, R426; 70_reset_and_hazards.md R434). No
step does any of it. -/
namespace Sys2Proof.Machine
open Sys2Proof

/-- The loader (R434): refused when the image does not fit; the bytes are copied as given; T is left alone. -/
def State.load (s : State) (bytes : List Byte) (offset : Nat) (entry : Word) (big : Bool) : Option State :=
  if offset + bytes.length ≤ s.cfg.memSize then
    some { s.setBigEndian big with mem := s.mem.writeBytes offset bytes, pc := entry }
  else none

/-- `register` (R426): a duplicate id is ignored, a new channel is appended. -/
def State.register (s : State) (c : Channel) : State :=
  if s.channels.any (fun d => d.id == c.id) then s else { s with channels := s.channels ++ [c] }

/-- `unregister` (R426). -/
def State.unregister (s : State) (id : Nat) : State :=
  { s with channels := s.channels.filter fun c => c.id != id }

end Sys2Proof.Machine
end

