-- ==== Sys2Proof/Safety.lean ====
section
/-! DEFINITION. Safety.lean: what holds of a state that a run can reach, and what a step leaves alone. -/
namespace Sys2Proof.Machine
open Sys2Proof

/-- Internal memory is canonical, and no byte is listed outside it (20_memory.md R62). -/
abbrev State.MemOk (s : State) : Prop := s.mem.wf ∧ ∀ x ∈ s.mem, x.1 < s.cfg.memSize

/-- The mode field is one of the seven (10_state.md R32). -/
abbrev State.ModeOk (s : State) : Prop := s.mode?.isSome = true

/-- The PC is aligned for the state, or the next fetch faults: word-aligned in ARM state, halfword-aligned in Thumb state
(20_memory.md R68). -/
abbrev State.PcAligned (s : State) : Prop := if s.thumb then s.pc.toNat % 2 = 0 else s.pc.toNat % 4 = 0

/-- The ids of the registry are unique (10_state.md R44). -/
abbrev State.ChannelsOk (s : State) : Prop := (s.channels.map Channel.id).Nodup

/-- What every reachable state has: a legal configuration, canonical memory, a legal mode, unique channel ids. -/
abbrev State.Inv (s : State) : Prop := s.cfg.WellFormed ∧ s.MemOk ∧ s.ModeOk ∧ s.ChannelsOk

/-- The state after a step still has what no step changes: the parameters and the registry (00_scope.md R10; R44). -/
abbrev State.SamePlatform (s t : State) : Prop := t.cfg = s.cfg ∧ t.channels = s.channels

end Sys2Proof.Machine
end

