-- ==== Sys2Proof/Certificates/Slice0/Obligations.lean ====
section
/-! DEFINITION. Certificates/Slice0/Obligations.lean: the statements for the provers. The formulas of `Sys2Proof.Claims` are written from
the spec's rules (Claims.lean). -/
open Sys2Proof Sys2Proof.Machine Sys2Proof.Claims

/-! ### Encoding and the step -/

/-- Words of the spec's own examples, one or more of every family, decode to the instruction they stand for (41 R180, R183; 42 R194,
R206, R207; 43 R231, R239; 44 R250, R252; 45 R262, R269, R275; 46 R291, R294; 47 R301; 48 R321, R345, R349, R352; 49 R365, R377, R385,
R389). Beside them, MOV, MVN, TST and CMP by a register shift with their ignored field all ones decode to that
operation (30_encoding.md R104, R107; log 9). -/
def Obligations.SpecWordsDecode : Prop :=
  decodeArm 0xE0010002 = .ok (.andRsi .al false 1 0 0 .lsl 2) ∧
  decodeArm 0xE38104FF = .ok (.orrImm .al false 1 0 4 0xFF) ∧
  decodeArm 0xE1B00021 = .ok (.movRsi .al true 0 0 .lsr 1) ∧
  decodeArm 0xE1AF0211 = .ok (.movRsr .al false 15 0 2 .lsl 1) ∧
  decodeArm 0xE1EF0211 = .ok (.mvnRsr .al false 15 0 2 .lsl 1) ∧
  decodeArm 0xE110F211 = .ok (.tstRsr .al 0 15 2 .lsl 1) ∧
  decodeArm 0xE150F211 = .ok (.cmpRsr .al 0 15 2 .lsl 1) ∧
  decodeArm 0xEA000010 = .ok (.b .al 0x10) ∧
  decodeArm 0xE12FFF10 = .ok (.bx .al 0) ∧
  decodeArm 0xE0203291 = .ok (.mla .al false 0 3 2 1) ∧
  decodeArm 0xE1203281 = .ok (.smlawy .al 0 3 2 false 1) ∧
  decodeArm 0xE10F0000 = .ok (.mrsCpsr .al 0) ∧
  decodeArm 0xE328F20F = .ok (.msrImmCpsr .al 8 2 0x0F) ∧
  decodeArm 0xE4810004 = .ok (.strImmPost .al true 1 0 4) ∧
  decodeArm 0xE05101F2 = .ok (.ldrshImm .al false false false 1 0 1 2) ∧
  decodeArm 0xE1020090 = .ok (.swp .al 2 0 0) ∧
  decodeArm 0xE92D4003 = .ok (.stmdb .al true 13 0x4003) ∧
  decodeArm 0xE8FD8000 = .ok (.ldmiaRst .al true 13 0x8000) ∧
  decodeArm 0xEF060000 = .ok (.swi .al 0x060000) ∧
  decodeThumb 0x0108 = .ok (.lslImmT 4 1 0) ∧
  decodeThumb 0x4348 = .ok (.mulT 1 0) ∧
  decodeThumb 0x4440 = .ok (.addHiT false true 0 0) ∧
  decodeThumb 0x4708 = .ok (.bxT false 1) ∧
  decodeThumb 0x5288 = .ok (.strhRegT 2 1 0) ∧
  decodeThumb 0xB503 = .ok (.pushT true 3) ∧
  decodeThumb 0xD1FC = .ok (.bneT 0xFC) ∧
  decodeThumb 0xFF7E = .ok (.blLoT 0x77E)

/-- A step runs the decoded instruction: whatever the fetch answers, and in internal memory on the word or halfword at the PC in the
current byte order; the advance of the state is by 4 in ARM state and by 2 in Thumb state. A step at a
misaligned PC faults. That a step of a halted state answers the fault `halted` is the model's choice (DESIGN CHOICE, log 2): 10_state.md
R40 says only that such a state has no step. -/
def Obligations.StepRunsDecodedInstruction : Prop :=
  (∀ (s t : State) (code : Code) (i : Instr), s.halted = false → s.fetch = .ok (code, t) → decode code = .ok i →
    step s = exec i t) ∧
  (∀ (s : State) (i : Instr), s.halted = false → s.thumb = false → s.pc.toNat % 4 = 0 → inMemory s s.pc 4 →
    decodeArm (wordAt s s.pc.toNat) = .ok i → step s = exec i s) ∧
  (∀ (s : State) (i : Instr), s.halted = false → s.thumb = true → s.pc.toNat % 2 = 0 → inMemory s s.pc 2 →
    decodeThumb (halfAt s s.pc.toNat) = .ok i → step s = exec i s) ∧
  (∀ s : State, s.advance = { s with pc := s.pc + (if s.thumb then 2 else 4) }) ∧
  (∀ s : State, s.halted = true → step s = .fault .halted) ∧
  (∀ s : State, s.halted = false → s.pc.toNat % (if s.thumb then 2 else 4) ≠ 0 → step s = .fault (.misalignedFetch s.pc))

/-- UNDEFINED only advances the PC, and these are UNDEFINED whatever the condition: the ARM Undefined class, every coprocessor
encoding, the LDRD and STRD places of the halfword class, Thumb condition 1110, and the Thumb BLX suffix (47_swi_and_undefined.md
R310, R311; 30_encoding.md R106, R130; 45_arm_load_store.md R271). -/
def Obligations.UndefinedWordsOnlyAdvance : Prop :=
  (∀ (s t : State) (code : Code) (r : Rejected), s.halted = false → s.fetch = .ok (code, t) → decode code = .error r →
    step s = .next { t with pc := t.pc + (if t.thumb then 2 else 4) }) ∧
  (∀ w : Word, w.extractLsb' 25 3 = 3#3 → w.getLsbD 4 = true → decodeArm w = .error (.undefinedArm w)) ∧
  (∀ w : Word, (w.extractLsb' 25 3 = 6#3 ∨ w.extractLsb' 24 4 = 14#4) → decodeArm w = .error (.undefinedArm w)) ∧
  (∀ w : Word, w.extractLsb' 25 3 = 0#3 → w.getLsbD 20 = false → w.getLsbD 7 = true → w.getLsbD 6 = true →
    w.getLsbD 4 = true → decodeArm w = .error (.undefinedArm w)) ∧
  (∀ h : Half, h.extractLsb' 8 8 = 0xDE#8 → decodeThumb h = .error (.undefinedThumb h)) ∧
  (∀ h : Half, h.extractLsb' 11 5 = 0x1D#5 → decodeThumb h = .error (.undefinedThumb h))

/-- Decoding undoes encoding, for every instruction and every value of its fields. -/
def Obligations.DecodeUndoesEncode : Prop := ∀ i : Instr, decode (encode i) = .ok i

/-- The rows of each state are pairwise disjoint, and a word or halfword of no row is UNDEFINED (30_encoding.md R133). -/
def Obligations.TableRowsAreDisjoint : Prop :=
  armRows.Pairwise (fun r q => ∀ w : Word, ¬ (r.accepts w = true ∧ q.accepts w = true)) ∧
  thumbRows.Pairwise (fun r q => ∀ h : Half, ¬ (r.accepts h = true ∧ q.accepts h = true)) ∧
  (∀ w : Word, (∀ r ∈ armRows, r.accepts w = false) → decodeArm w = .error (.undefinedArm w)) ∧
  (∀ h : Half, (∀ r ∈ thumbRows, r.accepts h = false) → decodeThumb h = .error (.undefinedThumb h))

/-- An ARM word whose condition fails only advances the PC, whatever it is, UNDEFINED words included; NV never passes, so a word with
condition `1111` is a no-op whatever else it is (40_core_condition_shifter.md R142, R146; 47_swi_and_undefined.md R311). The last clause is
R145's table, code by code, with N, Z, C and V in bits 31 to 28 of the CPSR. -/
def Obligations.FailedConditionOnlyAdvances : Prop :=
  (∀ (s t : State) (w : Word), s.halted = false → s.fetch = .ok (.arm w, t) →
    s.condPassed (Cond.ofBits (w.extractLsb' 28 4)) = false → step s = .next { t with pc := s.pc + 4 }) ∧
  (∀ (i : Instr) (c : Cond) (s : State), i.cond? = some c → s.condPassed c = false → exec i s = .next s.advance) ∧
  (∀ s : State, s.condPassed (Cond.ofBits 0xF#4) = false ∧ s.condPassed .al = true) ∧
  (∀ s : State,
    let n := s.cpsr.getLsbD 31
    let z := s.cpsr.getLsbD 30
    let c := s.cpsr.getLsbD 29
    let v := s.cpsr.getLsbD 28
    (s.condPassed (Cond.ofBits 0x0#4) = true ↔ z = true) ∧ (s.condPassed (Cond.ofBits 0x1#4) = true ↔ z = false) ∧
    (s.condPassed (Cond.ofBits 0x2#4) = true ↔ c = true) ∧ (s.condPassed (Cond.ofBits 0x3#4) = true ↔ c = false) ∧
    (s.condPassed (Cond.ofBits 0x4#4) = true ↔ n = true) ∧ (s.condPassed (Cond.ofBits 0x5#4) = true ↔ n = false) ∧
    (s.condPassed (Cond.ofBits 0x6#4) = true ↔ v = true) ∧ (s.condPassed (Cond.ofBits 0x7#4) = true ↔ v = false) ∧
    (s.condPassed (Cond.ofBits 0x8#4) = true ↔ c = true ∧ z = false) ∧ (s.condPassed (Cond.ofBits 0x9#4) = true ↔ c = false ∨ z = true) ∧
    (s.condPassed (Cond.ofBits 0xA#4) = true ↔ n = v) ∧ (s.condPassed (Cond.ofBits 0xB#4) = true ↔ n ≠ v) ∧
    (s.condPassed (Cond.ofBits 0xC#4) = true ↔ z = false ∧ n = v) ∧ (s.condPassed (Cond.ofBits 0xD#4) = true ↔ z = true ∨ n ≠ v) ∧
    s.condPassed (Cond.ofBits 0xE#4) = true ∧ s.condPassed (Cond.ofBits 0xF#4) = false)

/-- A form that is not admitted never completes: in every state, once its condition passes, it faults, with the first fault of R405's
table in the order of the rule's checks (60_exceptions.md R405, R406; 30_encoding.md R132, R135). An admitted form raises such a fault in
no state but for the block transfers with S, which the mode can refuse. That a register-shift form may hold 15 in the field it ignores is the
model's reading (DEDUCED, log 9). -/
def Obligations.IllFormedFormsFault : Prop :=
  (∀ (i : Instr) (s : State), i.wellFormed = false → (∀ c, i.cond? = some c → s.condPassed c = true) →
    ∃ f, formFault s i = some f ∧ exec i s = .fault f) ∧
  (∀ (i : Instr) (s : State), i.wellFormed = true → s.spsr?.isSome = true → formFault s i = none)

/-! ### The shifter and the adder -/

/-- The barrel shifter's results and carries, for every amount (40_core_condition_shifter.md R150, R155 to R157). -/
def Obligations.ShifterResults : Prop :=
  (∀ (t : ShiftType) (v : Word) (c : Bool), shift t 0 v c = (v, c)) ∧
  (∀ (n : Nat) (v : Word) (c : Bool), 0 < n →
    (shift .lsl n v c).1.toNat = v.toNat * 2 ^ n % 2 ^ 32 ∧ (shift .lsl n v c).2 = (decide (n ≤ 32) && v.getLsbD (32 - n)) ∧
    (shift .lsr n v c).1.toNat = v.toNat / 2 ^ n ∧ (shift .lsr n v c).2 = v.getLsbD (n - 1) ∧
    (shift .asr n v c).1.toInt = v.toInt / 2 ^ n ∧ (shift .asr n v c).2 = v.getLsbD (min (n - 1) 31) ∧
    (∀ i, i < 32 → (shift .ror n v c).1.getLsbD i = v.getLsbD ((i + n) % 32)) ∧
    (shift .ror n v c).2 = (shift .ror n v c).1.getLsbD 31) ∧
  (∀ (t : ShiftType) (rs v : Word) (c : Bool), shiftReg t rs v c = shift t (rs.toNat % 256) v c) ∧
  (∀ (t : ShiftType) (n : BitVec 5) (v : Word) (c : Bool), n ≠ 0 → shiftImm t n v c = shift t n.toNat v c) ∧
  (∀ (v : Word) (c : Bool), shiftImm .lsl 0 v c = (v, c) ∧ shiftImm .lsr 0 v c = (0, v.getLsbD 31) ∧
    shiftImm .asr 0 v c = (if v.getLsbD 31 then 0xFFFFFFFF else 0, v.getLsbD 31) ∧
    (shiftImm .ror 0 v c).1.toNat = c.toNat * 2 ^ 31 + v.toNat / 2 ∧ (shiftImm .ror 0 v c).2 = v.getLsbD 0) ∧
  (∀ (rot : BitVec 4) (imm8 : BitVec 8) (c : Bool),
    (∀ i, i < 32 → (immOperand rot imm8 c).1.getLsbD i = imm8.getLsbD ((i + 2 * rot.toNat) % 32)) ∧
    (immOperand rot imm8 c).2 = if rot = 0 then c else (immOperand rot imm8 c).1.getLsbD 31)

/-- The adder, and subtraction as the addition of the complement: C after a subtraction is NOT borrow
(40_core_condition_shifter.md R160, R161). -/
def Obligations.AdderResults : Prop :=
  (∀ (x y : Word) (c : Bool),
    ((addWithCarry x y c).value, (addWithCarry x y c).carry, (addWithCarry x y c).overflow) = addOut x y c) ∧
  (∀ (x y : Word) (c : Bool),
    ((addWithCarry x (~~~y) c).value, (addWithCarry x (~~~y) c).carry, (addWithCarry x (~~~y) c).overflow) = subOut x y (!c))

/-! ### ARM data processing -/

/-- The twelve operations that write Rd, for Rd other than R15: the result, and with S the flags, as R210 lists them. That MOV
and MVN by a register shift run with any Rn field, 15 included, is the model's reading of R191 (DEDUCED, log 9). -/
def Obligations.DataProcessingWritesRegister : Prop :=
  ∀ (op : DpOp) (c : Cond) (setf : Bool) (rn rd : Reg) (o : Operand2) (s : State),
    s.condPassed c = true → rd ≠ 15 → operandOk o (dpNamed op rn rd) = true →
    let r := dpOut op (s.readReg rn) (operand s o).1 (operand s o).2 s.flagC s.flagV
    exec (.dp op c setf rn rd o) s =
      .next { s.advance.writeReg rd r.1 with cpsr := if setf then flagsOf s r.1 r.2.1 r.2.2 else s.cpsr }

/-- Rd = R15 without S is a branch to a word-aligned result, and faults on any other (42_arm_data_processing.md R192, R211); a
register-shift form that names R15 faults, in operand 2 or as Rd or Rn where the operation has them (R191; R107; log 9). -/
def Obligations.DataProcessingWritesPc : Prop :=
  (∀ (op : DpOp) (c : Cond) (rn : Reg) (o : Operand2) (s : State),
    s.condPassed c = true → operandOk o (dpNamed op rn 15) = true →
    let r := dpOut op (s.readReg rn) (operand s o).1 (operand s o).2 s.flagC s.flagV
    exec (.dp op c false rn 15 o) s =
      if r.1.toNat % 4 = 0 then .next { s with pc := r.1 } else .fault (.unpredictable .unalignedPcWrite)) ∧
  (∀ (op : DpOp) (c : Cond) (setf : Bool) (rn rd : Reg) (o : Operand2) (s : State),
    s.condPassed c = true → operandOk o (dpNamed op rn rd) = false →
    exec (.dp op c setf rn rd o) s = .fault (.unpredictable .dpRegShiftPc)) ∧
  (∀ (op : CmpOp) (c : Cond) (rn rd : Reg) (o : Operand2) (s : State),
    s.condPassed c = true → operandOk o [rn] = false →
    exec (.dpCmp op c rn rd o) s = .fault (.unpredictable .dpRegShiftPc))

/-- Rd = R15 with S is a return: the CPSR comes from the SPSR of the mode before, and the PC follows the restored T; it faults in a mode
without SPSR and on an illegal saved mode (42_arm_data_processing.md R192; 10_state.md R36; 60_exceptions.md R408). -/
def Obligations.DataProcessingRestoresCpsr : Prop :=
  ∀ (op : DpOp) (c : Cond) (rn : Reg) (o : Operand2) (s : State),
    s.condPassed c = true → operandOk o (dpNamed op rn 15) = true →
    let v := (dpOut op (s.readReg rn) (operand s o).1 (operand s o).2 s.flagC s.flagV).1
    (s.spsr? = none → exec (.dp op c true rn 15 o) s = .fault .noSpsr) ∧
    (∀ k : Fin 5, s.spsr? = some k →
      let q := s.spsr[k]
      (modeOf (q.extractLsb' 0 5) = none → exec (.dp op c true rn 15 o) s = .fault (.illegalMode (q.extractLsb' 0 5))) ∧
      ((modeOf (q.extractLsb' 0 5)).isSome = true →
        exec (.dp op c true rn 15 o) s =
          if q.getLsbD 5 then .next { s with cpsr := q, pc := v &&& 0xFFFFFFFE#32 }
          else if v.toNat % 4 = 0 then .next { s with cpsr := q, pc := v }
          else .fault (.unpredictable .unalignedPcWrite)))

/-- TST, TEQ, CMP and CMN write the flags of R210 and nothing else but the PC's advance (42_arm_data_processing.md
R193), whatever their Rd field. That a register-shift form runs with 15 there is the model's reading (DEDUCED, log 9): 30_encoding.md R104
has the field ignored, where R191's check and R211, taken literally, would fault it. -/
def Obligations.CompareWritesFlags : Prop :=
  ∀ (op : CmpOp) (c : Cond) (rn rd : Reg) (o : Operand2) (s : State),
    s.condPassed c = true → operandOk o [rn] = true →
    exec (.dpCmp op c rn rd o) s =
      .next (flagsWritten s (cmpOut op (s.readReg rn) (operand s o).1 (operand s o).2 s.flagV))

/-! ### ARM branches -/

/-- B and BL go to `pc + 8 + sext(offset24) * 4`; BL leaves the next address in the link register (41_arm_branch.md R180 to R182). -/
def Obligations.BranchTargets : Prop :=
  ∀ (c : Cond) (offset24 : BitVec 24) (s : State), s.condPassed c = true → s.pc.toNat % 4 = 0 →
    exec (.b c offset24) s = .next { s with pc := s.pc + 8 + BitVec.ofInt 32 (offset24.toInt * 4) } ∧
    exec (.bl c offset24) s =
      .next { s.writeReg 14 (s.pc + 4) with pc := s.pc + 8 + BitVec.ofInt 32 (offset24.toInt * 4) }

/-- BX, BLX and Thumb BX go to the register's value: bit 0 selects Thumb state and is cleared, 00 selects ARM state, 10 faults. BLX
reads its target before it writes the link register (41_arm_branch.md R183, R184; 48_thumb_data_ops.md R352;
40_core_condition_shifter.md R167). -/
def Obligations.BranchExchange : Prop :=
  (∀ (c : Cond) (rm : Reg) (s : State), s.condPassed c = true →
    let v := s.readReg rm
    exec (.bx c rm) s =
      if v.getLsbD 0 then .next { s with cpsr := withThumb s.cpsr true, pc := v &&& 0xFFFFFFFE#32 }
      else if v.getLsbD 1 then .fault (.unpredictable .bxUnalignedArm)
      else .next { s with cpsr := withThumb s.cpsr false, pc := v }) ∧
  (∀ (c : Cond) (rm : Reg) (s : State), s.condPassed c = true → rm ≠ 15 →
    let v := s.readReg rm
    let l := s.writeReg 14 (s.pc + 4)
    exec (.blxReg c rm) s =
      if v.getLsbD 0 then .next { l with cpsr := withThumb s.cpsr true, pc := v &&& 0xFFFFFFFE#32 }
      else if v.getLsbD 1 then .fault (.unpredictable .bxUnalignedArm)
      else .next { l with cpsr := withThumb s.cpsr false, pc := v }) ∧
  (∀ (c : Cond) (s : State), s.condPassed c = true → exec (.blxReg c 15) s = .fault (.unpredictable .blxPc)) ∧
  (∀ (h2 : Bool) (rs : LowReg) (s : State),
    let v := s.readReg (hiReg h2 rs)
    exec (.bxT h2 rs) s =
      if v.getLsbD 0 then .next { s with cpsr := withThumb s.cpsr true, pc := v &&& 0xFFFFFFFE#32 }
      else if v.getLsbD 1 then .fault (.unpredictable .bxUnalignedArm)
      else .next { s with cpsr := withThumb s.cpsr false, pc := v })

/-! ### ARM multiplies -/

/-- MUL and MLA: the low 32 bits; with S, Z from the result and C cleared, N and V unchanged (43_arm_multiply.md R230 to R232). -/
def Obligations.MultiplyResults : Prop :=
  (∀ (c : Cond) (setf : Bool) (rd rs rm : Reg) (s : State),
    Instr.wellFormed (.mul c setf rd rs rm) = true → s.condPassed c = true →
    let r := BitVec.ofNat 32 ((s.readReg rm).toNat * (s.readReg rs).toNat)
    exec (.mul c setf rd rs rm) s =
      .next { s.advance.writeReg rd r with cpsr := if setf then withNZCV s.cpsr s.flagN (r == 0) false s.flagV else s.cpsr }) ∧
  (∀ (c : Cond) (setf : Bool) (rd rn rs rm : Reg) (s : State),
    Instr.wellFormed (.mla c setf rd rn rs rm) = true → s.condPassed c = true →
    let r := BitVec.ofNat 32 ((s.readReg rm).toNat * (s.readReg rs).toNat + (s.readReg rn).toNat)
    exec (.mla c setf rd rn rs rm) s =
      .next { s.advance.writeReg rd r with cpsr := if setf then withNZCV s.cpsr s.flagN (r == 0) false s.flagV else s.cpsr })

/-- UMULL, UMLAL, SMULL and SMLAL: the 64-bit result in the pair; with S, Z from it and C cleared, N from the signed forms alone
(43_arm_multiply.md R230, R233 to R236). -/
def Obligations.LongMultiplyResults : Prop :=
  ∀ (op : LongMulOp) (c : Cond) (setf : Bool) (rdHi rdLo rs rm : Reg) (s : State),
    Instr.wellFormed (.longMul op c setf rdHi rdLo rs rm) = true → s.condPassed c = true →
    let r := longOut op (s.readReg rm) (s.readReg rs) (s.readReg rdHi) (s.readReg rdLo)
    exec (.longMul op c setf rdHi rdLo rs rm) s =
      .next { pairWritten s rdHi rdLo r with
        cpsr := if setf then withNZCV s.cpsr (longN op r s.flagN) (r == 0) false s.flagV else s.cpsr }

/-- UMAAL never overflows 64 bits; SMLALxy accumulates modulo 2^64; neither writes a flag (43_arm_multiply.md R238, R241). -/
def Obligations.AccumulatePairResults : Prop :=
  (∀ (c : Cond) (rdHi rdLo rs rm : Reg) (s : State),
    Instr.wellFormed (.umaal c rdHi rdLo rs rm) = true → s.condPassed c = true →
    ∃ r : BitVec 64,
      r.toNat = (s.readReg rm).toNat * (s.readReg rs).toNat + (s.readReg rdHi).toNat + (s.readReg rdLo).toNat ∧
      exec (.umaal c rdHi rdLo rs rm) s = .next (pairWritten s rdHi rdLo r)) ∧
  (∀ (c : Cond) (rdHi rdLo rs : Reg) (y x : Bool) (rm : Reg) (s : State),
    Instr.wellFormed (.smlalxy c rdHi rdLo rs y x rm) = true → s.condPassed c = true →
    exec (.smlalxy c rdHi rdLo rs y x rm) s =
      .next (pairWritten s rdHi rdLo (BitVec.ofInt 64 (((s.readReg rdHi).toNat * 2 ^ 32 + (s.readReg rdLo).toNat : Nat) +
        halfInt x (s.readReg rm) * halfInt y (s.readReg rs)))))

/-- SMLAWy keeps the top 32 bits of the 48-bit product and sets Q on overflow of the accumulate; SMULxy is exact
(43_arm_multiply.md R239, R242). -/
def Obligations.HalfwordMultiplyResults : Prop :=
  (∀ (c : Cond) (rd rn rs : Reg) (y : Bool) (rm : Reg) (s : State),
    Instr.wellFormed (.smlawy c rd rn rs y rm) = true → s.condPassed c = true →
    let e : Int := ((s.readReg rm).toInt * halfInt y (s.readReg rs)) / 65536 + (s.readReg rn).toInt
    exec (.smlawy c rd rn rs y rm) s =
      .next { s.advance.writeReg rd (BitVec.ofInt 32 e) with
        cpsr := if signedOut e then s.cpsr ||| 0x08000000#32 else s.cpsr }) ∧
  (∀ (c : Cond) (rd rs : Reg) (y x : Bool) (rm : Reg) (s : State),
    Instr.wellFormed (.smulxy c rd rs y x rm) = true → s.condPassed c = true →
    ∃ v : Word, v.toInt = halfInt x (s.readReg rm) * halfInt y (s.readReg rs) ∧
      exec (.smulxy c rd rs y x rm) s = .next (s.advance.writeReg rd v))

/-- The three encodings the spec stops on: SMLAxy and SMULWy are refused, Thumb BX with H1 = 1 is UNPREDICTABLE (43_arm_multiply.md R237,
R240; 48_thumb_data_ops.md R352). -/
def Obligations.RefusedFormsStop : Prop :=
  (∀ (c : Cond) (rd rn rs : Reg) (y x : Bool) (rm : Reg) (s : State), s.condPassed c = true →
    exec (.smlaxy c rd rn rs y x rm) s = .fault (.unmodelled .smlaxy)) ∧
  (∀ (c : Cond) (rd rn rs : Reg) (y : Bool) (rm : Reg) (s : State), s.condPassed c = true →
    exec (.smulwy c rd rn rs y rm) s = .fault (.unmodelled .smulwy)) ∧
  (∀ (h2 : Bool) (rs : LowReg) (s : State), exec (.bxH1T h2 rs) s = .fault (.unpredictable .thumbBxH1)) ∧
  decodeArm 0xE1003281 = .ok (.smlaxy .al 0 3 2 false false 1) ∧ decodeArm 0xE12002A1 = .ok (.smulwy .al 0 0 2 false 1) ∧
  decodeThumb 0x4780 = .ok (.bxH1T false 0)

/-! ### Status registers -/

/-- MRS copies all 32 bits of the CPSR or of the current mode's SPSR (44_arm_psr_transfer.md R250). -/
def Obligations.MrsReadsStatus : Prop :=
  ∀ (c : Cond) (rd : Reg) (s : State), s.condPassed c = true →
    (rd ≠ 15 → exec (.mrsCpsr c rd) s = .next (s.advance.writeReg rd s.cpsr)) ∧
    (∀ k : Fin 5, rd ≠ 15 → s.spsr? = some k → exec (.mrsSpsr c rd) s = .next (s.advance.writeReg rd s.spsr[k])) ∧
    (rd ≠ 15 → s.spsr? = none → exec (.mrsSpsr c rd) s = .fault .noSpsr) ∧
    (rd = 15 → exec (.mrsCpsr c rd) s = .fault (.unpredictable .mrsPc) ∧
      exec (.mrsSpsr c rd) s = .fault (.unpredictable .mrsPc))

/-- MSR to the CPSR writes the bytes its mask selects, in User mode the f byte alone; a mode field outside the seven faults
(44_arm_psr_transfer.md R251, R252, R255; 10_state.md R35, R39). -/
def Obligations.MsrWritesCpsr : Prop :=
  ∀ (c : Cond) (mask : BitVec 4) (s : State) (v n : Word), s.condPassed c = true →
    (∀ i, i < 32 → n.getLsbD i =
      if (mask.getLsbD (i / 8) && (!s.isUser || i / 8 == 3)) then v.getLsbD i else s.cpsr.getLsbD i) →
    let out := if (modeOf (n.extractLsb' 0 5)).isSome then
        (Host.Outcome.next { s.advance with cpsr := n } : Host.Outcome State Fault Refusal)
      else .fault (.illegalMode (n.extractLsb' 0 5))
    (∀ rm : Reg, rm ≠ 15 → v = s.readReg rm → exec (.msrRegCpsr c mask rm) s = out) ∧
    (∀ (rot : BitVec 4) (imm8 : BitVec 8), v = (immOperand rot imm8 s.flagC).1 → exec (.msrImmCpsr c mask rot imm8) s = out)

/-- MSR to the SPSR writes the bytes its mask selects of the current mode's SPSR, with no check of the mode field, and faults in User and
System mode (44_arm_psr_transfer.md R252; 10_state.md R32, R33). -/
def Obligations.MsrWritesSpsr : Prop :=
  ∀ (c : Cond) (mask : BitVec 4) (s : State) (v : Word), s.condPassed c = true →
    (∀ (k : Fin 5) (n : Word), s.spsr? = some k →
      (∀ i, i < 32 → n.getLsbD i = if mask.getLsbD (i / 8) then v.getLsbD i else (s.spsr[k]).getLsbD i) →
      (∀ rm : Reg, rm ≠ 15 → v = s.readReg rm →
        exec (.msrRegSpsr c mask rm) s = .next { s.advance with spsr := s.spsr.set k n k.isLt }) ∧
      (∀ (rot : BitVec 4) (imm8 : BitVec 8), v = (immOperand rot imm8 s.flagC).1 →
        exec (.msrImmSpsr c mask rot imm8) s = .next { s.advance with spsr := s.spsr.set k n k.isLt })) ∧
    (s.spsr? = none → ∀ (rm : Reg) (rot : BitVec 4) (imm8 : BitVec 8), rm ≠ 15 →
      exec (.msrRegSpsr c mask rm) s = .fault .noSpsr ∧ exec (.msrImmSpsr c mask rot imm8) s = .fault .noSpsr)

/-! ### ARM single transfers -/

/-- LDR and LDRT in internal memory: the word in the byte order of the state, the base as R260 says, R15 loaded as a branch
(45_arm_load_store.md R260, R261, R265).
At every address, misaligned, straddling, unmapped or a channel's included, exec does what `dataRead` gives, its fault or its value and state (20_memory.md R70 to R77). -/
def Obligations.LdrLoadsWord : Prop :=
  ∀ (x : SdtIndex) (c : Cond) (u : Bool) (rn rd : Reg) (o : SdtOffset) (s : State),
    Instr.wellFormed (.ldr x c u rn rd o) = true → s.condPassed c = true →
    let a := sdtAddr s x u rn o
    let back := fun t : State => based t (sdtBack x) rn (moved s u rn (sdtOffset s o))
    (exec (.ldr x c u rn rd o) s =
      after (s.dataRead .word a) fun (v, t) => if rd = 15 then branched (back t) v else .next ((back t).writeReg rd v)) ∧
    (inMemory s a 4 → a.toNat % 4 = 0 →
      let v := wordAt s a.toNat
      let t := back s
      (rd ≠ 15 → exec (.ldr x c u rn rd o) s = .next (t.writeReg rd v)) ∧
      (rd = 15 → exec (.ldr x c u rn rd o) s =
        if v.toNat % 4 = 0 then .next { t with pc := v } else .fault (.unpredictable .unalignedPcWrite)))

/-- LDRB and LDRBT zero-extend a byte; LDRH zero-extends, LDRSB and LDRSH sign-extend, in internal memory
(45_arm_load_store.md R263, R265 to R269; 20_memory.md R80).
At every address, misaligned, straddling, unmapped or a channel's included, exec does what `dataRead` gives (20_memory.md R70 to R77). -/
def Obligations.NarrowLoadsExtend : Prop :=
  (∀ (x : SdtIndex) (c : Cond) (u : Bool) (rn rd : Reg) (o : SdtOffset) (s : State),
    Instr.wellFormed (.ldrb x c u rn rd o) = true → s.condPassed c = true →
    let a := sdtAddr s x u rn o
    let back := fun t : State => based t (sdtBack x) rn (moved s u rn (sdtOffset s o))
    (exec (.ldrb x c u rn rd o) s = after (s.dataRead .byte a) fun (v, t) => .next ((back t).writeReg rd v)) ∧
    (inMemory s a 1 →
      exec (.ldrb x c u rn rd o) s = .next ((back s).writeReg rd ((byteAt s a.toNat).setWidth 32)))) ∧
  (∀ (k : HalfLoad) (c : Cond) (p u w : Bool) (rn rd : Reg) (o : HalfOffset) (s : State),
    Instr.wellFormed (.halfLoad k c p u w rn rd o) = true → s.condPassed c = true →
    let a := halfAddr s p u rn o
    let back := fun t : State => based t (!p || w) rn (moved s u rn (halfOffset s o))
    (exec (.halfLoad k c p u w rn rd o) s = after (s.dataRead (halfLoadKind k) a) fun (v, t) => .next ((back t).writeReg rd v)) ∧
    (inMemory s a (widthBytes (halfLoadWidth k)) → a.toNat % widthBytes (halfLoadWidth k) = 0 →
      exec (.halfLoad k c p u w rn rd o) s = .next ((back s).writeReg rd (halfLoadValue s k a.toNat))))

/-- STR and STRT store the word of Rd, or the PC with `STORED_PC_OFFSET`, in internal memory (45_arm_load_store.md R262, R265).
At every address, misaligned, straddling, unmapped or a channel's included, exec does what `dataWrite` gives, its fault or its state (20_memory.md R70 to R77). -/
def Obligations.StrStoresWord : Prop :=
  ∀ (x : SdtIndex) (c : Cond) (u : Bool) (rn rd : Reg) (o : SdtOffset) (s : State),
    Instr.wellFormed (.str x c u rn rd o) = true → s.condPassed c = true →
    let a := sdtAddr s x u rn o
    let back := fun t : State => based t (sdtBack x) rn (moved s u rn (sdtOffset s o))
    let v := if rd = 15 then pcToStore s else s.readReg rd
    (exec (.str x c u rn rd o) s = after (s.dataWrite .word a v) fun t => .next (back t)) ∧
    (inMemory s a 4 → a.toNat % 4 = 0 →
      exec (.str x c u rn rd o) s = .next { back s with mem := Memory.writeBytes s.mem a.toNat (wordBytes s v) })

/-- STRB, STRBT and STRH store the low byte or halfword of Rd (45_arm_load_store.md R264, R265, R270).
At every address, misaligned, straddling, unmapped or a channel's included, exec does what `dataWrite` gives for the low bits of Rd (20_memory.md R70 to R77). -/
def Obligations.NarrowStoresTruncate : Prop :=
  (∀ (x : SdtIndex) (c : Cond) (u : Bool) (rn rd : Reg) (o : SdtOffset) (s : State),
    Instr.wellFormed (.strb x c u rn rd o) = true → s.condPassed c = true →
    let a := sdtAddr s x u rn o
    let back := fun t : State => based t (sdtBack x) rn (moved s u rn (sdtOffset s o))
    (exec (.strb x c u rn rd o) s = after (s.dataWrite .byte a (truncate .byte (s.readReg rd))) fun t => .next (back t)) ∧
    (inMemory s a 1 →
      exec (.strb x c u rn rd o) s =
        .next { back s with mem := Memory.writeBytes s.mem a.toNat [(s.readReg rd).extractLsb' 0 8] })) ∧
  (∀ (c : Cond) (p u w : Bool) (rn rd : Reg) (o : HalfOffset) (s : State),
    Instr.wellFormed (.strh c p u w rn rd o) = true → s.condPassed c = true →
    let a := halfAddr s p u rn o
    let back := fun t : State => based t (!p || w) rn (moved s u rn (halfOffset s o))
    (exec (.strh c p u w rn rd o) s = after (s.dataWrite .half a (truncate .half (s.readReg rd))) fun t => .next (back t)) ∧
    (inMemory s a 2 → a.toNat % 2 = 0 →
      exec (.strh c p u w rn rd o) s =
        .next { back s with mem := Memory.writeBytes s.mem a.toNat (halfBytes s (s.readReg rd)) }))

/-- SWP and SWPB: the old value in Rd, the value of Rm before the instruction in memory, Rd = Rm included
(45_arm_load_store.md R275, R276).
At every address, misaligned, straddling, unmapped or a channel's included, exec does what `dataRead` and then `dataWrite`, on the state after the read, give (20_memory.md R70 to R77). -/
def Obligations.SwapExchanges : Prop :=
  ∀ (c : Cond) (rn rd rm : Reg) (s : State), Instr.wellFormed (.swp c rn rd rm) = true → s.condPassed c = true →
    let a := s.readReg rn
    (exec (.swp c rn rd rm) s =
      after (s.dataRead .word a) fun (v, t) => after (t.dataWrite .word a (s.readReg rm)) fun q => .next (q.advance.writeReg rd v)) ∧
    (exec (.swpb c rn rd rm) s =
      after (s.dataRead .byte a) fun (v, t) =>
        after (t.dataWrite .byte a (truncate .byte (s.readReg rm))) fun q => .next (q.advance.writeReg rd v)) ∧
    (inMemory s a 4 → a.toNat % 4 = 0 →
      exec (.swp c rn rd rm) s =
        .next { s.advance.writeReg rd (wordAt s a.toNat) with
          mem := Memory.writeBytes s.mem a.toNat (wordBytes s (s.readReg rm)) }) ∧
    (inMemory s a 1 →
      exec (.swpb c rn rd rm) s =
        .next { s.advance.writeReg rd ((byteAt s a.toNat).setWidth 32) with
          mem := Memory.writeBytes s.mem a.toNat [(s.readReg rm).extractLsb' 0 8] })

/-! ### ARM block transfers -/

/-- The registers of a list are those of its set bits, from R0 up, each once (46_arm_block_transfer.md R290;
49_thumb_load_store_branch.md R381). -/
def Obligations.RegisterListOrder : Prop :=
  ∀ (n : Nat) (list : BitVec n), n ≤ 16 →
    (regsOf list).Pairwise (fun r q => r.val < q.val) ∧ ∀ r : Reg, r ∈ regsOf list ↔ list.getLsbD r.val = true

/-- STM without S: the registers' original values, the k-th of the list at `start + 4k`, then the writeback
(46_arm_block_transfer.md R290, R291, R296).
At every address, misaligned, straddling, unmapped or a channel's included, exec does what the accesses give, each on the
state after the one before, the policy checked once (20_memory.md R73 to R77). -/
def Obligations.StmStoresRegisters : Prop :=
  ∀ (k : BlockMode) (c : Cond) (w : Bool) (rn : Reg) (list : BitVec 16) (s : State),
    Instr.wellFormed (.stm k c w rn list) = true → s.condPassed c = true →
    let regs := regsOf list
    let a := blockLow k (s.readReg rn) regs.length
    let back := fun t : State => based t w rn (blockBase k (s.readReg rn) regs.length)
    let vs := regs.map fun r => if r = 15 then pcToStore s else s.readReg r
    (exec (.stm k c w rn list) s = after (blockFrom s a) fun b => after (wordsWritten s b vs) fun t => .next (back t)) ∧
    (inMemory s a (4 * regs.length) → a.toNat % 4 = 0 →
      exec (.stm k c w rn list) s = .next { back s with mem := writeWords s s.mem a.toNat vs })

/-- LDM without S: the k-th register of the list gets the word at `start + 4k`, the base the new base, R15 is a branch
(46_arm_block_transfer.md R290, R292).
At every address, misaligned, straddling, unmapped or a channel's included, exec does what the accesses give, each on the
state after the one before, the policy checked once (20_memory.md R73 to R77). -/
def Obligations.LdmLoadsRegisters : Prop :=
  ∀ (k : BlockMode) (c : Cond) (w : Bool) (rn : Reg) (list : BitVec 16) (s : State),
    Instr.wellFormed (.ldm k c w rn list) = true → s.condPassed c = true →
    let regs := regsOf list
    let a := blockLow k (s.readReg rn) regs.length
    let target := wordAt s (a.toNat + 4 * (regs.length - 1))
    (exec (.ldm k c w rn list) s =
      after (blockFrom s a) fun b => after (wordsRead s b regs.length) fun (vs, t) =>
        let q := regsWritten (based t w rn (blockBase k (s.readReg rn) regs.length)) regs vs
        if 15 ∈ regs then branched q (lastOf vs) else .next q) ∧
    (inMemory s a (4 * regs.length) → a.toNat % 4 = 0 →
      ((15 ∉ regs ∨ target.toNat % 4 = 0) →
        ∃ t, exec (.ldm k c w rn list) s = .next t ∧
          loaded s t s.bank regs a.toNat (regs ++ baseIf w rn) ∧
          (w = true → t.readReg rn = blockBase k (s.readReg rn) regs.length) ∧
          t = { s with regs := t.regs, pc := if 15 ∈ regs then target else s.advance.pc }) ∧
      (15 ∈ regs → target.toNat % 4 ≠ 0 → exec (.ldm k c w rn list) s = .fault (.unpredictable .unalignedPcWrite)))

/-- STM with S: the User registers, whatever the mode's own bank holds; it faults in User and System mode
(46_arm_block_transfer.md R293).
At every address, misaligned, straddling, unmapped or a channel's included, exec does what the accesses give, each on the
state after the one before, the policy checked once (20_memory.md R73 to R77). -/
def Obligations.StmUserStoresUserRegisters : Prop :=
  ∀ (k : BlockMode) (c : Cond) (w : Bool) (rn : Reg) (list : BitVec 16) (s : State), s.condPassed c = true →
    (s.spsr? = none → exec (.stmUsr k c w rn list) s = .fault (.unpredictable .userBankInUserMode)) ∧
    (s.spsr?.isSome = true → Instr.wellFormed (.stmUsr k c w rn list) = true →
      let regs := regsOf list
      let a := blockLow k (s.readReg rn) regs.length
      let vs := regs.map fun r => if r = 15 then pcToStore s else s.readIn .usr r
      (exec (.stmUsr k c w rn list) s = after (blockFrom s a) fun b => after (wordsWritten s b vs) fun t => .next t.advance) ∧
      (inMemory s a (4 * regs.length) → a.toNat % 4 = 0 →
        exec (.stmUsr k c w rn list) s = .next { s.advance with mem := writeWords s s.mem a.toNat vs }))

/-- LDM with S: the registers of the bank before the restore, then the CPSR from the SPSR, whether or not R15 is loaded
(46_arm_block_transfer.md R294; 60_exceptions.md R408).
At every address, misaligned, straddling, unmapped or a channel's included, exec does what the accesses give, each on the
state after the one before, the policy checked once (20_memory.md R73 to R77). -/
def Obligations.LdmRestoreReturns : Prop :=
  ∀ (k : BlockMode) (c : Cond) (w : Bool) (rn : Reg) (list : BitVec 16) (s : State), s.condPassed c = true →
    (s.spsr? = none → exec (.ldmRst k c w rn list) s = .fault .noSpsr) ∧
    (∀ j : Fin 5, s.spsr? = some j → Instr.wellFormed (.ldmRst k c w rn list) = true →
      let regs := regsOf list
      let a := blockLow k (s.readReg rn) regs.length
      let target := wordAt s (a.toNat + 4 * (regs.length - 1))
      let q := s.spsr[j]
      (exec (.ldmRst k c w rn list) s =
        after (blockFrom s a) fun b => after (wordsRead s b regs.length) fun (vs, t) =>
          let p := regsWritten (based t w rn (blockBase k (s.readReg rn) regs.length)) regs vs
          let v := lastOf vs
          if modeOf (q.extractLsb' 0 5) = none then .fault (.illegalMode (q.extractLsb' 0 5))
          else if 15 ∉ regs then .next { p with cpsr := q }
          else if q.getLsbD 5 then .next { p with cpsr := q, pc := v &&& 0xFFFFFFFE#32 }
          else branched { p with cpsr := q } v) ∧
      (inMemory s a (4 * regs.length) → a.toNat % 4 = 0 →
        (modeOf (q.extractLsb' 0 5) = none → exec (.ldmRst k c w rn list) s = .fault (.illegalMode (q.extractLsb' 0 5))) ∧
        ((modeOf (q.extractLsb' 0 5)).isSome = true → (15 ∉ regs ∨ q.getLsbD 5 = true ∨ target.toNat % 4 = 0) →
          ∃ t, exec (.ldmRst k c w rn list) s = .next t ∧
            loaded s t s.bank regs a.toNat (regs ++ baseIf w rn) ∧
            (w = true → t.readIn s.bank rn = blockBase k (s.readReg rn) regs.length) ∧
            t = { s with regs := t.regs, cpsr := q,
                         pc := if 15 ∈ regs then (if q.getLsbD 5 then target &&& 0xFFFFFFFE#32 else target)
                               else s.advance.pc })))

/-! ### Services -/

/-- SWI, ARM and Thumb: EXIT halts, DIV divides rounding toward zero and faults on 0, SQRT is the floor of the root, ATAN and ATAN2 put
their open value in R0, BGAFFINE touches the bus alone, any other number only advances the PC (47_swi_and_undefined.md R300 to R308). The values of ATAN
and ATAN2 and the accesses of BGAFFINE rest on the model's choice of log 8, and which number a SWI has (`serviceIs`) on that of log 5. -/
def Obligations.SwiServices : Prop :=
  ∀ (s : State) (i : Instr) (svc : Word), serviceIs s i svc → s.cfg.services.Nodup →
    (svc = s.cfg.swiExit → exec i s = .next { s.advance with halted := true }) ∧
    (svc = s.cfg.swiDiv → s.readReg 1 = 0 → exec i s = .fault .divideByZero) ∧
    (svc = s.cfg.swiDiv → s.readReg 1 ≠ 0 → ∀ q r : Int,
      (s.readReg 0).toInt = q * (s.readReg 1).toInt + r → r.natAbs < (s.readReg 1).toInt.natAbs →
      0 ≤ (s.readReg 0).toInt * r →
      exec i s = .next (((s.advance.writeReg 0 (BitVec.ofInt 32 q)).writeReg 1 (BitVec.ofInt 32 r)).writeReg 3
        (BitVec.ofNat 32 q.natAbs))) ∧
    (svc = s.cfg.swiSqrt → ∀ r : Nat, r * r ≤ (s.readReg 0).toNat → (s.readReg 0).toNat < (r + 1) * (r + 1) →
      exec i s = .next (s.advance.writeReg 0 (BitVec.ofNat 32 r))) ∧
    (svc = s.cfg.swiAtan → exec i s = .next (s.advance.writeReg 0 (Config.atanFn (s.readReg 0)))) ∧
    (svc = s.cfg.swiAtan2 → exec i s = .next (s.advance.writeReg 0 (Config.atan2Fn (s.readReg 0) (s.readReg 1)))) ∧
    (svc = s.cfg.swiBgAffine → ∀ t, exec i s = .next t →
      t = { s.advance with mem := t.mem, events := t.events, draws := t.draws }) ∧
    (svc ∉ s.cfg.services → exec i s = .next s.advance)

/-! ### Thumb data operations -/

/-- Format 1: the shifted register, with N, Z and the shifter's carry (48_thumb_data_ops.md R321 to R323). -/
def Obligations.ThumbShiftImmediate : Prop :=
  ∀ (op : ShiftImmOpT) (n : BitVec 5) (rs rd : LowReg) (s : State),
    let o := shiftImm (match op with | .lsl => .lsl | .lsr => .lsr | .asr => .asr) n (s.readReg rs.reg) s.flagC
    exec (.shiftImmT op n rs rd) s = .next (lowWritten s rd (o.1, o.2, s.flagV))

/-- Formats 2 and 3: add, subtract, move and compare (48_thumb_data_ops.md R324 to R331). -/
def Obligations.ThumbAddSubMovCmp : Prop :=
  ∀ (rn rs rd : LowReg) (imm3 : BitVec 3) (imm8 : BitVec 8) (s : State),
    exec (.addRegT rn rs rd) s = .next (lowWritten s rd (addOut (s.readReg rs.reg) (s.readReg rn.reg) false)) ∧
    exec (.subRegT rn rs rd) s = .next (lowWritten s rd (subOut (s.readReg rs.reg) (s.readReg rn.reg) false)) ∧
    exec (.addImm3T imm3 rs rd) s = .next (lowWritten s rd (addOut (s.readReg rs.reg) (imm3.setWidth 32) false)) ∧
    exec (.subImm3T imm3 rs rd) s = .next (lowWritten s rd (subOut (s.readReg rs.reg) (imm3.setWidth 32) false)) ∧
    exec (.movImmT rd imm8) s = .next (lowWritten s rd (imm8.setWidth 32, s.flagC, s.flagV)) ∧
    exec (.cmpImmT rd imm8) s = .next (flagsWritten s (subOut (s.readReg rd.reg) (imm8.setWidth 32) false)) ∧
    exec (.addImm8T rd imm8) s = .next (lowWritten s rd (addOut (s.readReg rd.reg) (imm8.setWidth 32) false)) ∧
    exec (.subImm8T rd imm8) s = .next (lowWritten s rd (subOut (s.readReg rd.reg) (imm8.setWidth 32) false))

/-- Format 4: the sixteen operations; MUL with Rd = Rs faults (48_thumb_data_ops.md R320, R332 to R347). -/
def Obligations.ThumbAluResults : Prop :=
  (∀ (op : AluOpT) (rs rd : LowReg) (s : State), (op = .mul → rd ≠ rs) →
    let r := aluTOut op (s.readReg rd.reg) (s.readReg rs.reg) s.flagC s.flagV
    exec (.aluT op rs rd) s = .next (if r.1 then lowWritten s rd r.2 else flagsWritten s r.2)) ∧
  (∀ (rd : LowReg) (s : State), exec (.mulT rd rd) s = .fault (.unpredictable .thumbMulRegs))

/-- Format 5 ADD, CMP and MOV: no flag but for CMP, R15 written with bit 0 cleared, H1 = H2 = 0 faults
(48_thumb_data_ops.md R348 to R351). -/
def Obligations.ThumbHighRegisters : Prop :=
  ∀ (h1 h2 : Bool) (rs rd : LowReg) (s : State),
    let d := hiReg h1 rd
    let x := s.readReg d
    let y := s.readReg (hiReg h2 rs)
    ((h1 || h2) = true →
      exec (.addHiT h1 h2 rs rd) s =
        .next (if d = 15 then { s with pc := (x + y) &&& 0xFFFFFFFE#32 } else s.advance.writeReg d (x + y)) ∧
      exec (.movHiT h1 h2 rs rd) s =
        .next (if d = 15 then { s with pc := y &&& 0xFFFFFFFE#32 } else s.advance.writeReg d y) ∧
      exec (.cmpHiT h1 h2 rs rd) s = .next (flagsWritten s (subOut x y false))) ∧
    ((h1 || h2) = false →
      exec (.addHiT h1 h2 rs rd) s = .fault (.unpredictable .hiRegLowLow) ∧
      exec (.movHiT h1 h2 rs rd) s = .fault (.unpredictable .hiRegLowLow) ∧
      exec (.cmpHiT h1 h2 rs rd) s = .fault (.unpredictable .hiRegLowLow))

/-- Formats 12 and 13: addresses from the aligned PC or from SP, and SP moved, with no flag (48_thumb_data_ops.md R353 to R355). The
four forms complete in every state and for every operand: their entries name no fault. -/
def Obligations.ThumbAddressArithmetic : Prop :=
  ∀ (rd : LowReg) (word8 : BitVec 8) (sword7 : BitVec 7) (s : State),
    exec (.addPcT rd word8) s = .next (s.advance.writeReg rd.reg (pcWordT s + BitVec.ofNat 32 (word8.toNat * 4))) ∧
    exec (.addSpT rd word8) s = .next (s.advance.writeReg rd.reg (s.readReg 13 + BitVec.ofNat 32 (word8.toNat * 4))) ∧
    exec (.addSpimmT sword7) s = .next (s.advance.writeReg 13 (s.readReg 13 + BitVec.ofNat 32 (sword7.toNat * 4))) ∧
    exec (.subSpimmT sword7) s = .next (s.advance.writeReg 13 (s.readReg 13 - BitVec.ofNat 32 (sword7.toNat * 4)))

/-! ### Thumb loads and stores -/

/-- The ten loads of one register, in internal memory (49_thumb_load_store_branch.md R360, R363, R364, R366 to R368, R370, R372, R374,
R376).
At every address, misaligned, straddling, unmapped or a channel's included, exec does what `dataRead` gives (20_memory.md R70 to R77). -/
def Obligations.ThumbLoads : Prop :=
  ∀ (k : LoadT) (rd : LowReg) (s : State),
    let a := loadTAddr s k
    (exec (.loadT k rd) s = after (s.dataRead (loadTKind k) a) fun (v, t) => .next (t.advance.writeReg rd.reg v)) ∧
    (inMemory s a (loadTWidth k) → a.toNat % loadTWidth k = 0 →
      exec (.loadT k rd) s = .next (s.advance.writeReg rd.reg (loadTValue s a.toNat k)))

/-- The seven stores of one register, in internal memory (49_thumb_load_store_branch.md R361, R362, R365, R369, R371, R373, R375).
At every address, misaligned, straddling, unmapped or a channel's included, exec does what `dataWrite` gives for the low bits of Rd (20_memory.md R70 to R77); for a misaligned STRH under Arm7 that is the model's reading (DEDUCED,
log 12). -/
def Obligations.ThumbStores : Prop :=
  ∀ (k : StoreT) (rd : LowReg) (s : State),
    let a := storeTAddr s k
    (exec (.storeT k rd) s =
      after (s.dataWrite (storeTWidth k) a (truncate (storeTWidth k) (s.readReg rd.reg))) fun t => .next t.advance) ∧
    (inMemory s a (widthBytes (storeTWidth k)) → a.toNat % widthBytes (storeTWidth k) = 0 →
      exec (.storeT k rd) s =
        .next { s.advance with mem := Memory.writeBytes s.mem a.toNat (widthBytesOf s (storeTWidth k) (s.readReg rd.reg)) })

/-- PUSH: the lowest register at the lowest address, LR last, SP moved down (49_thumb_load_store_branch.md R377).
At every address, misaligned, straddling, unmapped or a channel's included, exec does what the accesses give, each on the
state after the one before, the policy checked once (20_memory.md R73 to R77). -/
def Obligations.PushStores : Prop :=
  ∀ (r : Bool) (list : BitVec 8) (s : State), Instr.wellFormed (.pushT r list) = true →
    let regs := stackList list r 14
    let a := s.readReg 13 - span regs.length
    (exec (.pushT r list) s =
      after (blockFrom s a) fun b => after (wordsWritten s b (regs.map s.readReg)) fun t => .next (t.advance.writeReg 13 a)) ∧
    (inMemory s a (4 * regs.length) → a.toNat % 4 = 0 →
      exec (.pushT r list) s =
        .next { s.advance.writeReg 13 a with mem := writeWords s s.mem a.toNat (regs.map s.readReg) })

/-- POP: the words in list order, SP moved up, the PC from the last one where it has bit 0 set (49_thumb_load_store_branch.md R378;
40_core_condition_shifter.md R169).
At every address, misaligned, straddling, unmapped or a channel's included, exec does what the accesses give, each on the
state after the one before, the policy checked once (20_memory.md R73 to R77). -/
def Obligations.PopLoads : Prop :=
  ∀ (r : Bool) (list : BitVec 8) (s : State), Instr.wellFormed (.popT r list) = true →
    let regs := stackList list r 15
    let a := s.readReg 13
    let target := wordAt s (a.toNat + 4 * (regs.length - 1))
    (exec (.popT r list) s =
      after (blockFrom s a) fun b => after (wordsRead s b regs.length) fun (vs, t) =>
        let q := regsWritten (t.advance.writeReg 13 (a + span regs.length)) regs vs
        let v := lastOf vs
        if r = false then .next q
        else if v.getLsbD 0 then .next { q with pc := v &&& 0xFFFFFFFE#32 }
        else .fault (.unpredictable .popPcInterwork)) ∧
    (inMemory s a (4 * regs.length) → a.toNat % 4 = 0 →
      ((r = false ∨ target.getLsbD 0 = true) →
        ∃ t, exec (.popT r list) s = .next t ∧
          loaded s t s.bank regs a.toNat (13 :: regs) ∧
          t.readReg 13 = a + span regs.length ∧
          t = { s with regs := t.regs, pc := if r then target &&& 0xFFFFFFFE#32 else s.advance.pc }) ∧
      (r = true → target.getLsbD 0 = false → exec (.popT r list) s = .fault (.unpredictable .popPcInterwork)))

/-- STMIA and LDMIA of Thumb, always with writeback (49_thumb_load_store_branch.md R379 to R381).
At every address, misaligned, straddling, unmapped or a channel's included, exec does what the accesses give, each on the
state after the one before, the policy checked once (20_memory.md R73 to R77). -/
def Obligations.ThumbMultiple : Prop :=
  (∀ (rb : LowReg) (list : BitVec 8) (s : State), Instr.wellFormed (.stmiaT rb list) = true →
    let regs := regsOf list
    let a := s.readReg rb.reg
    (exec (.stmiaT rb list) s =
      after (blockFrom s a) fun b => after (wordsWritten s b (regs.map s.readReg)) fun t =>
        .next (t.advance.writeReg rb.reg (a + span regs.length))) ∧
    (inMemory s a (4 * regs.length) → a.toNat % 4 = 0 →
      exec (.stmiaT rb list) s =
        .next { s.advance.writeReg rb.reg (a + span regs.length) with mem := writeWords s s.mem a.toNat (regs.map s.readReg) })) ∧
  (∀ (rb : LowReg) (list : BitVec 8) (s : State), Instr.wellFormed (.ldmiaT rb list) = true →
    let regs := regsOf list
    let a := s.readReg rb.reg
    (exec (.ldmiaT rb list) s =
      after (blockFrom s a) fun b => after (wordsRead s b regs.length) fun (vs, t) =>
        .next (regsWritten (t.advance.writeReg rb.reg (a + span regs.length)) regs vs)) ∧
    (inMemory s a (4 * regs.length) → a.toNat % 4 = 0 →
      ∃ t, exec (.ldmiaT rb list) s = .next t ∧
        loaded s t s.bank regs a.toNat (rb.reg :: regs) ∧
        t.readReg rb.reg = a + span regs.length ∧
        t = { s with regs := t.regs, pc := s.advance.pc }))

/-! ### Thumb branches -/

/-- Format 16: a branch when the condition passes, else the advance (49_thumb_load_store_branch.md R385). When a condition passes, code by
code, is the last clause of `FailedConditionOnlyAdvances`. -/
def Obligations.ThumbConditionalBranch : Prop :=
  ∀ (c : Cond) (n : BitVec 8) (i : Instr) (s : State), Instr.branchT c n = some i →
    exec i s = .next (if s.condPassed c then { s with pc := (s.pc + 4 + BitVec.ofInt 32 (n.toInt * 2)) &&& 0xFFFFFFFE#32 }
      else s.advance)

/-- Formats 18 and 19, and the BL pair: from the prefix at `a` the suffix goes to `a + 4 + sext(hi : lo) * 2` with the link register at
`(a + 4) OR 1` (49_thumb_load_store_branch.md R386, R388 to R390). -/
def Obligations.ThumbBranchAndLink : Prop :=
  (∀ (n : BitVec 11) (s : State),
    exec (.bT n) s = .next { s with pc := (s.pc + 4 + BitVec.ofInt 32 (n.toInt * 2)) &&& 0xFFFFFFFE#32 } ∧
    exec (.blHiT n) s = .next (s.advance.writeReg 14 (s.pc + 4 + BitVec.ofInt 32 (n.toInt * 4096))) ∧
    exec (.blLoT n) s =
      .next { s.writeReg 14 ((s.pc + 2) ||| 1) with pc := (s.readReg 14 + BitVec.ofNat 32 (n.toNat * 2)) &&& 0xFFFFFFFE#32 }) ∧
  (∀ (hi lo : BitVec 11) (s : State), s.thumb = true → s.pc.toNat % 2 = 0 →
    ∃ t u, exec (.blHiT hi) s = .next t ∧ exec (.blLoT lo) t = .next u ∧
      u.pc = s.pc + 4 + BitVec.ofInt 32 ((hi ++ lo).toInt * 2) ∧ u.readReg 14 = (s.pc + 4) ||| 1)

/-! ### The bus -/

/-- Where an access goes, by its start address, computed exactly: internal memory, a straddle, or above; an access above that no channel
covers reads 0 and writes nothing, and records nothing (20_memory.md R63, R64, R77). -/
def Obligations.BusRouting : Prop :=
  ∀ (s : State) (a v : Word) (w : Width),
    (a.toNat + widthBytes w ≤ s.cfg.memSize →
      s.memRead a w = .ok (valueAt s w a.toNat, s) ∧
      s.memWrite a w v = .ok { s with mem := Memory.writeBytes s.mem a.toNat (widthBytesOf s w v) }) ∧
    (a.toNat < s.cfg.memSize → s.cfg.memSize < a.toNat + widthBytes w →
      s.memRead a w = .error (.straddle a w) ∧ s.memWrite a w v = .error (.straddle a w)) ∧
    (s.cfg.memSize ≤ a.toNat → covering s a = [] → s.memRead a w = .ok (0, s) ∧ s.memWrite a w v = .ok s)

/-- A channel access: every covering channel is invoked once, in registration order, with the address relative to its base; a read takes
the first one's answer (20_memory.md R74 to R76). The answers are the free values of log 6, and that the value of an event is
cut to the width is the model's reading (DEDUCED, log 14). -/
def Obligations.ChannelAccesses : Prop :=
  ∀ (s : State) (a v : Word) (w : Width), s.cfg.memSize ≤ a.toNat → covering s a ≠ [] →
    s.memRead a w =
      .ok (truncate w (Config.deviceAnswer s.draws),
        { s with
          draws := s.draws + (covering s a).length
          events := s.events ++ (covering s a).mapIdx fun k c =>
            Event.channelRead c.id (a.toNat - c.base) w (truncate w (Config.deviceAnswer (s.draws + k))) }) ∧
    s.memWrite a w v =
      .ok { s with
        events := s.events ++ (covering s a).map fun c => Event.channelWrite c.id (a.toNat - c.base) w (truncate w v) }

/-- A value written to internal memory reads back under either byte order; the bytes lie as the byte order says; every other byte is
unchanged (20_memory.md R64 to R66). -/
def Obligations.WriteReadRoundTrip : Prop :=
  ∀ (s : State) (a v : Word) (w : Width), s.mem.wf → a.toNat + widthBytes w ≤ s.cfg.memSize →
    ∃ t, s.memWrite a w v = .ok t ∧ t.mem.wf ∧ t.memRead a w = .ok (truncate w v, t) ∧
      (∀ c, (c < a.toNat ∨ a.toNat + widthBytes w ≤ c) → byteAt t c = byteAt s c) ∧
      (w = .word → s.bigEndian = false → byteAt t a.toNat = v.extractLsb' 0 8) ∧
      (w = .word → s.bigEndian = true → byteAt t a.toNat = v.extractLsb' 24 8 ∧
        halfAt t (a.toNat + 2) = v.extractLsb' 0 16)

/-- The policies for a misaligned access in internal memory: `Fault` faults, `Arm7` with E = 0 rotates and aligns, with E = 1 faults,
`PlainBytes` accesses the exact address (20_memory.md R70 to R72). The same over the whole address space, in terms of the bus. That a
misaligned Thumb STRH follows the STRH line of R71 is the model's reading (DEDUCED, log 12). -/
def Obligations.MisalignPolicies : Prop :=
  (∀ (s : State) (a v : Word), s.cfg.memSize ≤ 2 ^ 32 → a.toNat + 4 ≤ s.cfg.memSize →
      (a.toNat % 4 ≠ 0 → (s.cfg.misalign = .fault ∨ (s.cfg.misalign = .arm7 ∧ s.bigEndian = true)) →
        s.dataRead .word a = .error (.misaligned a .word) ∧ s.dataWrite .word a v = .error (.misaligned a .word)) ∧
      (a.toNat % 2 ≠ 0 → (s.cfg.misalign = .fault ∨ (s.cfg.misalign = .arm7 ∧ s.bigEndian = true)) →
        s.dataRead .half a = .error (.misaligned a .half) ∧ s.dataRead .signedHalf a = .error (.misaligned a .half) ∧
        s.dataWrite .half a v = .error (.misaligned a .half)) ∧
      (s.cfg.misalign = .arm7 → s.bigEndian = false →
        s.dataRead .word a = .ok ((wordAt s (a.toNat - a.toNat % 4)).rotateRight (8 * (a.toNat % 4)), s) ∧
        s.dataRead .half a = .ok (((halfAt s (a.toNat - a.toNat % 2)).setWidth 32).rotateRight (8 * (a.toNat % 2)), s) ∧
        (a.toNat % 2 = 1 → s.dataRead .signedHalf a = .ok ((byteAt s a.toNat).signExtend 32, s)) ∧
        s.dataWrite .word a v =
          .ok { s with mem := Memory.writeBytes s.mem (a.toNat - a.toNat % 4) (wordBytes s v) } ∧
        s.dataWrite .half a v =
          .ok { s with mem := Memory.writeBytes s.mem (a.toNat - a.toNat % 2) (halfBytes s v) }) ∧
      (s.cfg.misalign = .plainBytes →
        s.dataRead .word a = .ok (wordAt s a.toNat, s) ∧ s.dataRead .half a = .ok ((halfAt s a.toNat).setWidth 32, s) ∧
        s.dataRead .signedHalf a = .ok ((halfAt s a.toNat).signExtend 32, s) ∧
        s.dataWrite .word a v = .ok { s with mem := Memory.writeBytes s.mem a.toNat (wordBytes s v) } ∧
        s.dataWrite .half a v = .ok { s with mem := Memory.writeBytes s.mem a.toNat (halfBytes s v) })) ∧
  (∀ (s : State) (k : LoadKind) (a : Word), a.toNat % widthBytes (loadWidth k) = 0 ∨ s.cfg.misalign = .plainBytes →
    s.dataRead k a = (s.memRead a (loadWidth k)).map fun (v, t) => (extended k v, t)) ∧
  (∀ (s : State) (w : Width) (a v : Word), a.toNat % widthBytes w = 0 ∨ s.cfg.misalign = .plainBytes → s.dataWrite w a v = s.memWrite a w v) ∧
  (∀ (s : State) (a v : Word), s.cfg.misalign = .fault ∨ (s.cfg.misalign = .arm7 ∧ s.bigEndian = true) →
    (∀ k : LoadKind, a.toNat % widthBytes (loadWidth k) ≠ 0 → s.dataRead k a = .error (.misaligned a (loadWidth k))) ∧
    (∀ w : Width, a.toNat % widthBytes w ≠ 0 → s.dataWrite w a v = .error (.misaligned a w))) ∧
  (∀ (s : State) (a v : Word), s.cfg.misalign = .arm7 → s.bigEndian = false →
    (a.toNat % 4 ≠ 0 → s.dataRead .word a = (s.memRead (down .word a) .word).map fun (v, t) => (v.rotateRight (8 * (a.toNat % 4)), t)) ∧
    (a.toNat % 2 ≠ 0 → s.dataRead .half a =
      (s.memRead (down .half a) .half).map fun (v, t) => ((extended .half v).rotateRight (8 * (a.toNat % 2)), t)) ∧
    (a.toNat % 2 ≠ 0 → s.dataRead .signedHalf a = (s.memRead a .byte).map fun (v, t) => (extended .signedByte v, t)) ∧
    (∀ w : Width, a.toNat % widthBytes w ≠ 0 → s.dataWrite w a v = s.memWrite (down w a) w v))

/-! ### Frames -/

/-- Every general register, of every bank, is unchanged except those `destinations` names, in the view of the mode before. -/
def Obligations.FrameRegisters : Prop :=
  ∀ (i : Instr) (s t : State), exec i s = .next t →
    ∀ p : PhysReg, (∀ r ∈ destinations i, physReg s.bank r ≠ some p) → t.readPhys p = s.readPhys p

/-- Every CPSR bit is unchanged except those `statusMask` names: no load, store, branch or service writes a flag (10_state.md R37), T is
written by the exchanges alone, and the mode by MSR with the c field and by the restores (60_exceptions.md R410). -/
def Obligations.FrameStatus : Prop :=
  ∀ (i : Instr) (s t : State), exec i s = .next t → t.cpsr &&& ~~~(statusMask i) = s.cpsr &&& ~~~(statusMask i)

/-- An instruction that stores nothing leaves memory as it is, and one that makes no access leaves the history and the draws; the history
only grows; no instruction changes the parameters or the registry. -/
def Obligations.FrameMemoryAndHistory : Prop :=
  ∀ (i : Instr) (s t : State), exec i s = .next t →
    (mayStore i = false → t.mem = s.mem) ∧
    (mayAccess i = false → t.mem = s.mem ∧ t.events = s.events ∧ t.draws = s.draws) ∧
    s.events <+: t.events ∧ s.draws ≤ t.draws ∧ t.cfg = s.cfg ∧ t.channels = s.channels

/-- The stores of one register or of a swap change only the bytes at the address their meaning computes, aligned as the policy says
(20_memory.md R70 to R72). That a misaligned Thumb STRH under Arm7 goes to the address aligned down, as STRH does, is the model's reading
(DEDUCED, log 12): R71 names Thumb in its word lines only. -/
def Obligations.FrameSingleStores : Prop :=
  (∀ (x : SdtIndex) (c : Cond) (u : Bool) (rn rd : Reg) (o : SdtOffset) (s t : State) (a : Word) (wb : Option Word),
    sdtResult s x u rn rd o = .ok (a, wb) →
    (exec (.str x c u rn rd o) s = .next t → onlyBytes s t (storedAt s .word a) 4) ∧
    (exec (.strb x c u rn rd o) s = .next t → onlyBytes s t a 1)) ∧
  (∀ (c : Cond) (p u w : Bool) (rn rd : Reg) (o : HalfOffset) (s t : State) (a : Word) (wb : Option Word),
    hdtResult s p u w rn rd o = .ok (a, wb) →
    exec (.strh c p u w rn rd o) s = .next t → onlyBytes s t (storedAt s .half a) 2) ∧
  (∀ (c : Cond) (rn rd rm : Reg) (s t : State),
    (exec (.swp c rn rd rm) s = .next t → onlyBytes s t (storedAt s .word (s.readReg rn)) 4) ∧
    (exec (.swpb c rn rd rm) s = .next t → onlyBytes s t (s.readReg rn) 1)) ∧
  (∀ (k : StoreT) (rd : LowReg) (s t : State), exec (.storeT k rd) s = .next t →
    onlyBytes s t (storedAt s (storeTWidth k) (storeTAddr s k)) (widthBytes (storeTWidth k)))

/-- The block stores change only the words of their list, from the address their meaning computes. -/
def Obligations.FrameBlockStores : Prop :=
  (∀ (k : BlockMode) (c : Cond) (w : Bool) (rn : Reg) (list : BitVec 16) (s t : State) (a b : Word),
    s.blockAddress k rn list = .ok (a, b) →
    (exec (.stm k c w rn list) s = .next t ∨ exec (.stmUsr k c w rn list) s = .next t) →
    onlyWords s t (storedAt s .word a) (regsOf list).length) ∧
  (∀ (r : Bool) (list : BitVec 8) (s t : State), exec (.pushT r list) s = .next t →
    let n := (stackList list r 14).length
    onlyWords s t (storedAt s .word (s.readReg 13 - span n)) n) ∧
  (∀ (rb : LowReg) (list : BitVec 8) (s t : State), exec (.stmiaT rb list) s = .next t →
    onlyWords s t (storedAt s .word (s.readReg rb.reg)) (regsOf list).length)

/-- Only MSR writes an SPSR, and only the current mode's (10_state.md R33); only a SWI sets `halted`, and nothing clears it (R40). -/
def Obligations.FrameSpsrAndHalted : Prop :=
  ∀ (i : Instr) (s t : State), exec i s = .next t →
    (t.spsr = s.spsr ∨ (∃ c mask rm, i = .msrRegSpsr c mask rm) ∨ (∃ c mask rot imm8, i = .msrImmSpsr c mask rot imm8)) ∧
    (∀ k : Fin 5, s.spsr? ≠ some k → t.spsr[k] = s.spsr[k]) ∧
    (t.halted = s.halted ∨ (t.halted = true ∧ ((∃ c n, i = .swi c n) ∨ (∃ n, i = .swiT n))))

/-! ### The whole machine -/

/-- Every step from a state of the invariant leaves the invariant: memory canonical and inside `MEM_SIZE`, a legal mode, unique channel ids,
the parameters and the registry unchanged; and after every step the PC is aligned for the state. -/
def Obligations.StepKeepsInvariant : Prop :=
  (∀ s t : State, s.Inv → step s = .next t → t.Inv ∧ s.SamePlatform t) ∧
  (∀ s t : State, step s = .next t → t.PcAligned)

/-- User mode is never left (60_exceptions.md R410): from a state in User mode every step that answers a next state answers one in User mode,
and it writes no SPSR and no CPSR bit of the I, F, A, E and mode fields. -/
def Obligations.UserModeIsNeverLeft : Prop :=
  ∀ s t : State, s.isUser = true → step s = .next t →
    t.isUser = true ∧ t.spsr = s.spsr ∧ t.cpsr &&& 0x00FFFFDF#32 = s.cpsr &&& 0x00FFFFDF#32

/-- Creation (70_reset_and_hazards.md R430, R431): every element at the value of its table, for every configuration; the invariant holds. -/
def Obligations.CreationState : Prop :=
  ∀ k : Config,
    let s := State.create k
    (∀ p : PhysReg, s.readPhys p = if p = .sp (bankOf k.initMode) then k.stackBase else 0) ∧
    s.pc = 0 ∧ s.mode? = some k.initMode ∧ s.bigEndian = k.initE ∧
    (∀ i, 5 ≤ i → i ≠ 9 → s.cpsr.getLsbD i = false) ∧
    (∀ j : Fin 5, s.spsr[j] = 0) ∧ (∀ a, Memory.read s.mem a = 0) ∧
    s.channels = [] ∧ s.halted = false ∧ s.events = [] ∧ s.cfg = k ∧
    (k.WellFormed → s.Inv) ∧ State.reset.cpsr = 0x0000001F

/-- The registry and the loader, between steps (60_exceptions.md R426; 70_reset_and_hazards.md R434): a duplicate id is ignored, a new
channel is appended, a removed one is gone; a load is refused when the image does not fit, else it writes the bytes as given, the PC and
E; each keeps the invariant. -/
def Obligations.HostOperations : Prop :=
  (∀ (s : State) (c : Channel),
    ((∃ d ∈ s.channels, d.id = c.id) → s.register c = s) ∧
    ((∀ d ∈ s.channels, d.id ≠ c.id) → s.register c = { s with channels := s.channels ++ [c] }) ∧
    (s.Inv → (s.register c).Inv)) ∧
  (∀ (s : State) (id : Nat), s.unregister id = { s with channels := s.channels.filter fun d => decide (d.id ≠ id) } ∧
    ((∀ d ∈ s.channels, d.id ≠ id) → s.unregister id = s) ∧ (s.Inv → (s.unregister id).Inv)) ∧
  (∀ (s : State) (bytes : List Byte) (offset : Nat) (entry : Word) (big : Bool),
    (s.cfg.memSize < offset + bytes.length → s.load bytes offset entry big = none) ∧
    (offset + bytes.length ≤ s.cfg.memSize → s.Inv → ∃ t, s.load bytes offset entry big = some t ∧ t.Inv ∧
      t = { s with mem := t.mem, pc := entry, cpsr := t.cpsr } ∧ t.bigEndian = big ∧
      t.cpsr &&& 0xFFFFFDFF#32 = s.cpsr &&& 0xFFFFFDFF#32 ∧
      ∀ a, Memory.read t.mem a =
        if offset ≤ a ∧ a < offset + bytes.length then bytes.getD (a - offset) 0 else Memory.read s.mem a))
end

