-- ==== Sys2Proof/Laws/Bits.lean ====
section
/-! SUPPORT. Laws/Bits.lean: bit fields put and read, field encodings undone, bytes assembled and taken apart. -/
namespace Sys2Proof

theorem get_or {w : Nat} (a b : BitVec w) (lo n : Nat) : get (a ||| b) lo n = get a lo n ||| get b lo n := by
  simp [get, BitVec.extractLsb'_or]

theorem get_and {w : Nat} (a b : BitVec w) (lo n : Nat) : get (a &&& b) lo n = get a lo n &&& get b lo n := by
  simp [get, BitVec.extractLsb'_and]

theorem get_getLsbD {w : Nat} (v : BitVec w) (lo n i : Nat) : (get v lo n).getLsbD i = (decide (i < n) && v.getLsbD (lo + i)) := by
  simp [get, BitVec.getLsbD_extractLsb']

theorem put_getLsbD {n : Nat} (w lo : Nat) (f : BitVec n) (i : Nat) :
    (put w lo f).getLsbD i = (decide (i < w) && decide (lo ≤ i) && f.getLsbD (i - lo)) := by
  simp only [put, BitVec.getLsbD_shiftLeft, BitVec.getLsbD_setWidth]
  by_cases h1 : i < w <;> by_cases h2 : i < lo
  · simp [h1, h2]
  · simp [h1, h2, Nat.not_lt.mp h2]; intro; omega
  · simp [h1]
  · simp [h1]

/-- A field put is read back. -/
theorem get_put {n : Nat} (w lo : Nat) (f : BitVec n) (h : lo + n ≤ w) : get (put w lo f) lo n = f := by
  apply BitVec.eq_of_getLsbD_eq
  intro i hi
  have h1 : lo + i < w := by omega
  rw [get_getLsbD, put_getLsbD]
  simp [hi, h1]

/-- A field put is not seen outside its place. -/
theorem get_put_ne {n : Nat} (w lo lo' m : Nat) (f : BitVec n) (h : lo + n ≤ lo' ∨ lo' + m ≤ lo) :
    get (put w lo f) lo' m = 0 := by
  apply BitVec.eq_of_getLsbD_eq
  intro i hi
  rw [get_getLsbD, put_getLsbD]
  by_cases h2 : lo ≤ lo' + i
  · simp [BitVec.getLsbD_of_ge f (lo' + i - lo) (by omega)]
  · simp [h2]

/-- A field that lies outside a mask adds nothing under it. -/
theorem put_and {n : Nat} (w lo : Nat) (f : BitVec n) (m : BitVec w) (h : put w lo (BitVec.allOnes n) &&& m = 0) :
    put w lo f &&& m = 0 := by
  apply BitVec.eq_of_getLsbD_eq
  intro i hi
  have := congrArg (·.getLsbD i) h
  simp only [BitVec.getLsbD_and, put_getLsbD, BitVec.getLsbD_allOnes] at this ⊢
  by_cases h1 : i - lo < n
  · cases hf : f.getLsbD (i - lo) <;> simp_all
  · simp [BitVec.getLsbD_of_ge f (i - lo) (by omega)]

theorem or_and {w : Nat} (a b m : BitVec w) : (a ||| b) &&& m = (a &&& m) ||| (b &&& m) := by
  apply BitVec.eq_of_getLsbD_eq
  intro i _
  simp [Bool.and_or_distrib_right]

@[simp] theorem regOf_regBits (r : Reg) : regOf (regBits r) = r := rfl
@[simp] theorem lowOf_lowBits (r : LowReg) : lowOf (lowBits r) = r := rfl
@[simp] theorem flagOf_flagBits (b : Bool) : flagOf (flagBits b) = b := by cases b <;> rfl
@[simp] theorem Cond.ofBits_bits (c : Cond) : Cond.ofBits c.bits = c := by cases c <;> rfl
@[simp] theorem ShiftType.ofBits_bits (t : ShiftType) : ShiftType.ofBits t.bits = t := by cases t <;> rfl

/-! ### Byte order (20_memory.md R64 to R66) -/

theorem bytesOfWord_length (n : Nat) (v : Word) : (bytesOfWord n v).length = n := by
  induction n generalizing v with
  | zero => rfl
  | succ n ih => simp [bytesOfWord, ih]

theorem disassemble_length (big : Bool) (n : Nat) (v : Word) : (disassemble big n v).length = n := by
  cases big <;> simp [disassemble, bytesOfWord_length]

theorem assemble_disassemble (big : Bool) (n : Nat) (v : Word) :
    assemble big (disassemble big n v) = wordOfBytes (bytesOfWord n v) := by
  cases big <;> simp [assemble, disassemble]

/-- The `n` low bytes of a word make its low `8 n` bits. -/
theorem wordOfBytes_bytesOfWord (n : Nat) (v : Word) (i : Nat) :
    (wordOfBytes (bytesOfWord n v)).getLsbD i = (decide (i < 8 * n) && v.getLsbD i) := by
  induction n generalizing v i with
  | zero => simp [bytesOfWord, wordOfBytes]
  | succ n ih =>
    simp only [bytesOfWord, wordOfBytes, BitVec.getLsbD_or, BitVec.getLsbD_setWidth, BitVec.getLsbD_shiftLeft, ih,
      BitVec.getLsbD_ushiftRight]
    by_cases h32 : i < 32
    · by_cases h8 : i < 8
      · simp [h8, h32]; intro; omega
      · have e1 : 8 + (i - 8) = i := by omega
        simp only [h8, h32, e1, decide_true, decide_false, Bool.true_and, Bool.false_and, Bool.and_false, Bool.false_or,
          Bool.not_false]
        congr 1
        exact decide_eq_decide.mpr (by omega)
    · simp [h32, BitVec.getLsbD_of_ge v i (by omega)]

end Sys2Proof
end

