-- ==== Sys2Proof/Laws/Memory.lean ====
section
/-! SUPPORT. Laws/Memory.lean: reads after writes, and the canonical form of internal memory (20_memory.md R62, R64). -/
namespace Sys2Proof.Machine
open Sys2Proof

/-! ### One byte -/

/-- Below every listed address nothing is listed. -/
theorem Memory.read_below {m : Memory} {a : Nat} (h : ∀ x ∈ m, a < x.1) : Memory.read m a = Memory.unlisted := by
  induction m with
  | nil => rfl
  | cons x m ih =>
    have := h x (by simp)
    simp only [Memory.read]
    rw [if_neg (by omega)]
    exact ih fun y hy => h y (by simp [hy])

/-- A byte read after a byte written, in a memory of rising addresses. -/
theorem Memory.read_write {m : Memory} (hm : m.Pairwise fun x y => x.1 < y.1) (a c : Nat) (b : Byte) :
    Memory.read (Memory.write m a b) c = if c = a then b else Memory.read m c := by
  induction m with
  | nil =>
    simp only [Memory.write]
    split
    · rename_i h; simp only [Memory.read]; split <;> simp_all
    · by_cases h : c = a
      · subst h; simp [Memory.read]
      · have : ¬ a = c := fun e => h e.symm
        simp [Memory.read, h, this]
  | cons x m ih =>
    obtain ⟨y, v⟩ := x
    obtain ⟨h1, h2⟩ := List.pairwise_cons.mp hm
    simp only [Memory.write]
    by_cases hlt : a < y
    · simp only [hlt, if_true]
      have hb : Memory.read ((y, v) :: m) a = Memory.unlisted :=
        Memory.read_below (by
          intro z hz
          rcases List.mem_cons.mp hz with rfl | hz
          · exact hlt
          · exact Nat.lt_trans hlt (h1 z hz))
      by_cases hu : b = Memory.unlisted
      · simp only [hu, if_true]
        by_cases hc : c = a
        · subst hc; simp [hb]
        · simp [hc]
      · simp only [hu, if_false]
        by_cases hc : c = a
        · subst hc; simp [Memory.read]
        · have : ¬ a = c := fun e => hc e.symm
          simp [Memory.read, hc, this]
    · simp only [hlt, if_false]
      by_cases he : a = y
      · subst he
        simp only [if_true]
        have hb : Memory.read m a = Memory.unlisted := Memory.read_below h1
        by_cases hu : b = Memory.unlisted
        · simp only [hu, if_true]
          by_cases hc : c = a
          · subst hc; simp [hb]
          · have : ¬ a = c := fun e => hc e.symm
            simp [hc, Memory.read, this]
        · simp only [hu, if_false]
          by_cases hc : c = a
          · subst hc; simp [Memory.read]
          · have : ¬ a = c := fun e => hc e.symm
            simp [hc, Memory.read, this]
      · simp only [he, if_false, Memory.read, ih h2]
        by_cases hc : y = c
        · subst hc
          have : ¬ y = a := fun e => he e.symm
          simp [this]
        · simp [hc]

/-- A byte written leaves every other byte, in any memory. -/
theorem Memory.read_write_of_ne (m : Memory) (a c : Nat) (b : Byte) (hc : c ≠ a) :
    Memory.read (Memory.write m a b) c = Memory.read m c := by
  have hac : ¬ a = c := fun e => hc e.symm
  induction m with
  | nil =>
    simp only [Memory.write]
    split
    · rfl
    · simp [Memory.read, hac]
  | cons x m ih =>
    obtain ⟨y, v⟩ := x
    simp only [Memory.write]
    split
    · split
      · rfl
      · simp [Memory.read, hac]
    · split
      · rename_i he
        subst he
        split <;> simp [Memory.read, hac]
      · simp only [Memory.read, ih]

/-- A write lists no address but its own and those listed before. -/
theorem Memory.mem_write {m : Memory} {a : Nat} {b : Byte} {x : Host.Cell} (h : x ∈ Memory.write m a b) :
    (x.1 = a ∧ x.2 ≠ Memory.unlisted) ∨ x ∈ m := by
  induction m with
  | nil =>
    simp only [Memory.write] at h
    split at h
    · simp at h
    · rename_i hb; simp at h; subst h; exact .inl ⟨rfl, hb⟩
  | cons y m ih =>
    obtain ⟨z, v⟩ := y
    simp only [Memory.write] at h
    split at h
    · split at h
      · exact .inr h
      · rename_i hb
        rcases List.mem_cons.mp h with rfl | h
        · exact .inl ⟨rfl, hb⟩
        · exact .inr h
    · split at h
      · split at h
        · exact .inr (by simp [h])
        · rename_i hb
          rcases List.mem_cons.mp h with rfl | h
          · exact .inl ⟨rfl, hb⟩
          · exact .inr (by simp [h])
      · rcases List.mem_cons.mp h with rfl | h
        · exact .inr (by simp)
        · rcases ih h with h | h
          · exact .inl h
          · exact .inr (by simp [h])

/-- A write keeps the addresses rising. -/
theorem Memory.write_rising {m : Memory} (hm : m.Pairwise fun x y => x.1 < y.1) (a : Nat) (b : Byte) :
    (Memory.write m a b).Pairwise fun x y => x.1 < y.1 := by
  induction m with
  | nil => simp only [Memory.write]; split <;> simp
  | cons x m ih =>
    obtain ⟨y, v⟩ := x
    obtain ⟨h1, h2⟩ := List.pairwise_cons.mp hm
    simp only [Memory.write]
    split
    · rename_i hlt
      split
      · exact hm
      · refine List.pairwise_cons.mpr ⟨?_, hm⟩
        intro z hz
        rcases List.mem_cons.mp hz with rfl | hz
        · exact hlt
        · exact Nat.lt_trans hlt (h1 z hz)
    · split
      · rename_i he
        split
        · exact h2
        · exact List.pairwise_cons.mpr ⟨fun z hz => by have := h1 z hz; simp only at this ⊢; omega, h2⟩
      · rename_i hlt he
        refine List.pairwise_cons.mpr ⟨?_, ih h2⟩
        intro z hz
        rcases Memory.mem_write hz with ⟨h, _⟩ | h
        · simp only at h ⊢; omega
        · exact h1 z h

/-- A write keeps the canonical form. -/
theorem Memory.wf_write {m : Memory} (h : m.wf) (a : Nat) (b : Byte) : (Memory.write m a b).wf := by
  refine ⟨Memory.write_rising h.1 a b, fun x hx => ?_⟩
  rcases Memory.mem_write hx with ⟨_, hb⟩ | hx
  · exact hb
  · exact h.2 x hx

/-! ### Runs of bytes -/

/-- Writing bytes keeps the canonical form. -/
theorem Memory.wf_writeBytes {m : Memory} (h : m.wf) (a : Nat) (bs : List Byte) : (Memory.writeBytes m a bs).wf := by
  induction bs generalizing m a with
  | nil => exact h
  | cons b bs ih => exact ih (Memory.wf_write h a b) (a + 1)

/-- Writing bytes lists addresses of the run and those listed before. -/
theorem Memory.mem_writeBytes {m : Memory} {a : Nat} {bs : List Byte} {x : Host.Cell} (h : x ∈ Memory.writeBytes m a bs) :
    (a ≤ x.1 ∧ x.1 < a + bs.length) ∨ x ∈ m := by
  induction bs generalizing m a with
  | nil => exact .inr h
  | cons b bs ih =>
    rcases ih h with ⟨h1, h2⟩ | h
    · exact .inl ⟨by omega, by simp only [List.length_cons]; omega⟩
    · rcases Memory.mem_write h with ⟨h, _⟩ | h
      · exact .inl ⟨by omega, by simp only [List.length_cons]; omega⟩
      · exact .inr h

/-- A byte read after bytes written: the byte of the run at its place, else the byte of before. -/
theorem Memory.read_writeBytes {m : Memory} (h : m.wf) (a c : Nat) (bs : List Byte) :
    Memory.read (Memory.writeBytes m a bs) c =
      if a ≤ c ∧ c < a + bs.length then bs.getD (c - a) Memory.unlisted else Memory.read m c := by
  induction bs generalizing m a with
  | nil => simp [Memory.writeBytes]
  | cons b bs ih =>
    simp only [Memory.writeBytes, List.length_cons]
    rw [ih (Memory.wf_write h a b), Memory.read_write h.1]
    by_cases h1 : a + 1 ≤ c ∧ c < a + 1 + bs.length
    · rw [if_pos h1, if_pos (by omega)]
      have : c - a = (c - (a + 1)) + 1 := by omega
      rw [this, List.getD_cons_succ]
    · rw [if_neg h1]
      by_cases h2 : c = a
      · subst h2; simp
      · rw [if_neg h2, if_neg (by omega)]

theorem Memory.readBytes_length (m : Memory) (a n : Nat) : (Memory.readBytes m a n).length = n := by
  induction n generalizing a with
  | zero => rfl
  | succ n ih => simp [Memory.readBytes, ih]

/-- The i-th byte of a run. -/
theorem Memory.readBytes_getD (m : Memory) (a n i : Nat) (h : i < n) :
    (Memory.readBytes m a n).getD i Memory.unlisted = Memory.read m (a + i) := by
  induction n generalizing a i with
  | zero => omega
  | succ n ih =>
    cases i with
    | zero => simp [Memory.readBytes]
    | succ i =>
      simp only [Memory.readBytes, List.getD_cons_succ]
      rw [ih (a + 1) i (by omega)]
      congr 1; omega

/-- Bytes written are read back. -/
theorem Memory.readBytes_writeBytes {m : Memory} (h : m.wf) (a : Nat) (bs : List Byte) :
    Memory.readBytes (Memory.writeBytes m a bs) a bs.length = bs := by
  apply List.ext_getElem
  · rw [Memory.readBytes_length]
  · intro i h1 h2
    have e := Memory.readBytes_getD (Memory.writeBytes m a bs) a bs.length i h2
    rw [List.getD_eq_getElem _ _ h1] at e
    rw [e, Memory.read_writeBytes h, if_pos (by omega)]
    rw [show a + i - a = i by omega, List.getD_eq_getElem _ _ h2]

/-- Writing bytes leaves every byte outside the run, in any memory. -/
theorem Memory.read_writeBytes_of_outside (m : Memory) (a c : Nat) (bs : List Byte) (hc : c < a ∨ a + bs.length ≤ c) :
    Memory.read (Memory.writeBytes m a bs) c = Memory.read m c := by
  induction bs generalizing m a with
  | nil => rfl
  | cons b bs ih =>
    simp only [List.length_cons] at hc
    simp only [Memory.writeBytes]
    rw [ih _ _ (by omega), Memory.read_write_of_ne _ _ _ _ (by omega)]

end Sys2Proof.Machine
end

