-- ==== Sys2Proof/Laws/State.lean ====
section
/-! SUPPORT. Laws/State.lean: one lemma per field and update, and what reads see after register and flag writes. -/
namespace Sys2Proof.Machine
open Sys2Proof

/-! ### Fields after updates -/

@[simp] theorem State.advance_cfg (s : State) : (s.advance).cfg = s.cfg := rfl
@[simp] theorem State.advance_regs (s : State) : (s.advance).regs = s.regs := rfl
@[simp] theorem State.advance_cpsr (s : State) : (s.advance).cpsr = s.cpsr := rfl
@[simp] theorem State.advance_spsr (s : State) : (s.advance).spsr = s.spsr := rfl
@[simp] theorem State.advance_mem (s : State) : (s.advance).mem = s.mem := rfl
@[simp] theorem State.advance_channels (s : State) : (s.advance).channels = s.channels := rfl
@[simp] theorem State.advance_events (s : State) : (s.advance).events = s.events := rfl
@[simp] theorem State.advance_halted (s : State) : (s.advance).halted = s.halted := rfl
@[simp] theorem State.advance_draws (s : State) : (s.advance).draws = s.draws := rfl

@[simp] theorem State.setN_cfg (s : State) (b : Bool) : (s.setN b).cfg = s.cfg := rfl
@[simp] theorem State.setN_regs (s : State) (b : Bool) : (s.setN b).regs = s.regs := rfl
@[simp] theorem State.setN_pc (s : State) (b : Bool) : (s.setN b).pc = s.pc := rfl
@[simp] theorem State.setN_spsr (s : State) (b : Bool) : (s.setN b).spsr = s.spsr := rfl
@[simp] theorem State.setN_mem (s : State) (b : Bool) : (s.setN b).mem = s.mem := rfl
@[simp] theorem State.setN_channels (s : State) (b : Bool) : (s.setN b).channels = s.channels := rfl
@[simp] theorem State.setN_events (s : State) (b : Bool) : (s.setN b).events = s.events := rfl
@[simp] theorem State.setN_halted (s : State) (b : Bool) : (s.setN b).halted = s.halted := rfl
@[simp] theorem State.setN_draws (s : State) (b : Bool) : (s.setN b).draws = s.draws := rfl
@[simp] theorem State.setN_cpsr (s : State) (b : Bool) : (s.setN b).cpsr = setBit s.cpsr 31 b := rfl

@[simp] theorem State.setZ_cfg (s : State) (b : Bool) : (s.setZ b).cfg = s.cfg := rfl
@[simp] theorem State.setZ_regs (s : State) (b : Bool) : (s.setZ b).regs = s.regs := rfl
@[simp] theorem State.setZ_pc (s : State) (b : Bool) : (s.setZ b).pc = s.pc := rfl
@[simp] theorem State.setZ_spsr (s : State) (b : Bool) : (s.setZ b).spsr = s.spsr := rfl
@[simp] theorem State.setZ_mem (s : State) (b : Bool) : (s.setZ b).mem = s.mem := rfl
@[simp] theorem State.setZ_channels (s : State) (b : Bool) : (s.setZ b).channels = s.channels := rfl
@[simp] theorem State.setZ_events (s : State) (b : Bool) : (s.setZ b).events = s.events := rfl
@[simp] theorem State.setZ_halted (s : State) (b : Bool) : (s.setZ b).halted = s.halted := rfl
@[simp] theorem State.setZ_draws (s : State) (b : Bool) : (s.setZ b).draws = s.draws := rfl
@[simp] theorem State.setZ_cpsr (s : State) (b : Bool) : (s.setZ b).cpsr = setBit s.cpsr 30 b := rfl

@[simp] theorem State.setC_cfg (s : State) (b : Bool) : (s.setC b).cfg = s.cfg := rfl
@[simp] theorem State.setC_regs (s : State) (b : Bool) : (s.setC b).regs = s.regs := rfl
@[simp] theorem State.setC_pc (s : State) (b : Bool) : (s.setC b).pc = s.pc := rfl
@[simp] theorem State.setC_spsr (s : State) (b : Bool) : (s.setC b).spsr = s.spsr := rfl
@[simp] theorem State.setC_mem (s : State) (b : Bool) : (s.setC b).mem = s.mem := rfl
@[simp] theorem State.setC_channels (s : State) (b : Bool) : (s.setC b).channels = s.channels := rfl
@[simp] theorem State.setC_events (s : State) (b : Bool) : (s.setC b).events = s.events := rfl
@[simp] theorem State.setC_halted (s : State) (b : Bool) : (s.setC b).halted = s.halted := rfl
@[simp] theorem State.setC_draws (s : State) (b : Bool) : (s.setC b).draws = s.draws := rfl
@[simp] theorem State.setC_cpsr (s : State) (b : Bool) : (s.setC b).cpsr = setBit s.cpsr 29 b := rfl

@[simp] theorem State.setV_cfg (s : State) (b : Bool) : (s.setV b).cfg = s.cfg := rfl
@[simp] theorem State.setV_regs (s : State) (b : Bool) : (s.setV b).regs = s.regs := rfl
@[simp] theorem State.setV_pc (s : State) (b : Bool) : (s.setV b).pc = s.pc := rfl
@[simp] theorem State.setV_spsr (s : State) (b : Bool) : (s.setV b).spsr = s.spsr := rfl
@[simp] theorem State.setV_mem (s : State) (b : Bool) : (s.setV b).mem = s.mem := rfl
@[simp] theorem State.setV_channels (s : State) (b : Bool) : (s.setV b).channels = s.channels := rfl
@[simp] theorem State.setV_events (s : State) (b : Bool) : (s.setV b).events = s.events := rfl
@[simp] theorem State.setV_halted (s : State) (b : Bool) : (s.setV b).halted = s.halted := rfl
@[simp] theorem State.setV_draws (s : State) (b : Bool) : (s.setV b).draws = s.draws := rfl
@[simp] theorem State.setV_cpsr (s : State) (b : Bool) : (s.setV b).cpsr = setBit s.cpsr 28 b := rfl

@[simp] theorem State.setQ_cfg (s : State) (b : Bool) : (s.setQ b).cfg = s.cfg := rfl
@[simp] theorem State.setQ_regs (s : State) (b : Bool) : (s.setQ b).regs = s.regs := rfl
@[simp] theorem State.setQ_pc (s : State) (b : Bool) : (s.setQ b).pc = s.pc := rfl
@[simp] theorem State.setQ_spsr (s : State) (b : Bool) : (s.setQ b).spsr = s.spsr := rfl
@[simp] theorem State.setQ_mem (s : State) (b : Bool) : (s.setQ b).mem = s.mem := rfl
@[simp] theorem State.setQ_channels (s : State) (b : Bool) : (s.setQ b).channels = s.channels := rfl
@[simp] theorem State.setQ_events (s : State) (b : Bool) : (s.setQ b).events = s.events := rfl
@[simp] theorem State.setQ_halted (s : State) (b : Bool) : (s.setQ b).halted = s.halted := rfl
@[simp] theorem State.setQ_draws (s : State) (b : Bool) : (s.setQ b).draws = s.draws := rfl
@[simp] theorem State.setQ_cpsr (s : State) (b : Bool) : (s.setQ b).cpsr = setBit s.cpsr 27 b := rfl

@[simp] theorem State.setThumb_cfg (s : State) (b : Bool) : (s.setThumb b).cfg = s.cfg := rfl
@[simp] theorem State.setThumb_regs (s : State) (b : Bool) : (s.setThumb b).regs = s.regs := rfl
@[simp] theorem State.setThumb_pc (s : State) (b : Bool) : (s.setThumb b).pc = s.pc := rfl
@[simp] theorem State.setThumb_spsr (s : State) (b : Bool) : (s.setThumb b).spsr = s.spsr := rfl
@[simp] theorem State.setThumb_mem (s : State) (b : Bool) : (s.setThumb b).mem = s.mem := rfl
@[simp] theorem State.setThumb_channels (s : State) (b : Bool) : (s.setThumb b).channels = s.channels := rfl
@[simp] theorem State.setThumb_events (s : State) (b : Bool) : (s.setThumb b).events = s.events := rfl
@[simp] theorem State.setThumb_halted (s : State) (b : Bool) : (s.setThumb b).halted = s.halted := rfl
@[simp] theorem State.setThumb_draws (s : State) (b : Bool) : (s.setThumb b).draws = s.draws := rfl
@[simp] theorem State.setThumb_cpsr (s : State) (b : Bool) : (s.setThumb b).cpsr = setBit s.cpsr 5 b := rfl

@[simp] theorem State.setBigEndian_cfg (s : State) (b : Bool) : (s.setBigEndian b).cfg = s.cfg := rfl
@[simp] theorem State.setBigEndian_regs (s : State) (b : Bool) : (s.setBigEndian b).regs = s.regs := rfl
@[simp] theorem State.setBigEndian_pc (s : State) (b : Bool) : (s.setBigEndian b).pc = s.pc := rfl
@[simp] theorem State.setBigEndian_spsr (s : State) (b : Bool) : (s.setBigEndian b).spsr = s.spsr := rfl
@[simp] theorem State.setBigEndian_mem (s : State) (b : Bool) : (s.setBigEndian b).mem = s.mem := rfl
@[simp] theorem State.setBigEndian_channels (s : State) (b : Bool) : (s.setBigEndian b).channels = s.channels := rfl
@[simp] theorem State.setBigEndian_events (s : State) (b : Bool) : (s.setBigEndian b).events = s.events := rfl
@[simp] theorem State.setBigEndian_halted (s : State) (b : Bool) : (s.setBigEndian b).halted = s.halted := rfl
@[simp] theorem State.setBigEndian_draws (s : State) (b : Bool) : (s.setBigEndian b).draws = s.draws := rfl
@[simp] theorem State.setBigEndian_cpsr (s : State) (b : Bool) : (s.setBigEndian b).cpsr = setBit s.cpsr 9 b := rfl

@[simp] theorem State.setNZ_cfg (s : State) (v : Word) : (s.setNZ v).cfg = s.cfg := rfl
@[simp] theorem State.setNZ_regs (s : State) (v : Word) : (s.setNZ v).regs = s.regs := rfl
@[simp] theorem State.setNZ_pc (s : State) (v : Word) : (s.setNZ v).pc = s.pc := rfl
@[simp] theorem State.setNZ_spsr (s : State) (v : Word) : (s.setNZ v).spsr = s.spsr := rfl
@[simp] theorem State.setNZ_mem (s : State) (v : Word) : (s.setNZ v).mem = s.mem := rfl
@[simp] theorem State.setNZ_channels (s : State) (v : Word) : (s.setNZ v).channels = s.channels := rfl
@[simp] theorem State.setNZ_events (s : State) (v : Word) : (s.setNZ v).events = s.events := rfl
@[simp] theorem State.setNZ_halted (s : State) (v : Word) : (s.setNZ v).halted = s.halted := rfl
@[simp] theorem State.setNZ_draws (s : State) (v : Word) : (s.setNZ v).draws = s.draws := rfl

@[simp] theorem State.setOverflow_cfg (s : State) (o : Option Bool) : (s.setOverflow o).cfg = s.cfg := by cases o <;> rfl
@[simp] theorem State.setOverflow_regs (s : State) (o : Option Bool) : (s.setOverflow o).regs = s.regs := by cases o <;> rfl
@[simp] theorem State.setOverflow_pc (s : State) (o : Option Bool) : (s.setOverflow o).pc = s.pc := by cases o <;> rfl
@[simp] theorem State.setOverflow_spsr (s : State) (o : Option Bool) : (s.setOverflow o).spsr = s.spsr := by cases o <;> rfl
@[simp] theorem State.setOverflow_mem (s : State) (o : Option Bool) : (s.setOverflow o).mem = s.mem := by cases o <;> rfl
@[simp] theorem State.setOverflow_channels (s : State) (o : Option Bool) : (s.setOverflow o).channels = s.channels := by cases o <;> rfl
@[simp] theorem State.setOverflow_events (s : State) (o : Option Bool) : (s.setOverflow o).events = s.events := by cases o <;> rfl
@[simp] theorem State.setOverflow_halted (s : State) (o : Option Bool) : (s.setOverflow o).halted = s.halted := by cases o <;> rfl
@[simp] theorem State.setOverflow_draws (s : State) (o : Option Bool) : (s.setOverflow o).draws = s.draws := by cases o <;> rfl

@[simp] theorem State.setFlags_cfg (s : State) (r : AluResult) : (s.setFlags r).cfg = s.cfg := by simp [State.setFlags]
@[simp] theorem State.setFlags_regs (s : State) (r : AluResult) : (s.setFlags r).regs = s.regs := by simp [State.setFlags]
@[simp] theorem State.setFlags_pc (s : State) (r : AluResult) : (s.setFlags r).pc = s.pc := by simp [State.setFlags]
@[simp] theorem State.setFlags_spsr (s : State) (r : AluResult) : (s.setFlags r).spsr = s.spsr := by simp [State.setFlags]
@[simp] theorem State.setFlags_mem (s : State) (r : AluResult) : (s.setFlags r).mem = s.mem := by simp [State.setFlags]
@[simp] theorem State.setFlags_channels (s : State) (r : AluResult) : (s.setFlags r).channels = s.channels := by simp [State.setFlags]
@[simp] theorem State.setFlags_events (s : State) (r : AluResult) : (s.setFlags r).events = s.events := by simp [State.setFlags]
@[simp] theorem State.setFlags_halted (s : State) (r : AluResult) : (s.setFlags r).halted = s.halted := by simp [State.setFlags]
@[simp] theorem State.setFlags_draws (s : State) (r : AluResult) : (s.setFlags r).draws = s.draws := by simp [State.setFlags]

@[simp] theorem State.setMulFlags_cfg (s : State) (z : Bool) : (s.setMulFlags z).cfg = s.cfg := rfl
@[simp] theorem State.setMulFlags_regs (s : State) (z : Bool) : (s.setMulFlags z).regs = s.regs := rfl
@[simp] theorem State.setMulFlags_pc (s : State) (z : Bool) : (s.setMulFlags z).pc = s.pc := rfl
@[simp] theorem State.setMulFlags_spsr (s : State) (z : Bool) : (s.setMulFlags z).spsr = s.spsr := rfl
@[simp] theorem State.setMulFlags_mem (s : State) (z : Bool) : (s.setMulFlags z).mem = s.mem := rfl
@[simp] theorem State.setMulFlags_channels (s : State) (z : Bool) : (s.setMulFlags z).channels = s.channels := rfl
@[simp] theorem State.setMulFlags_events (s : State) (z : Bool) : (s.setMulFlags z).events = s.events := rfl
@[simp] theorem State.setMulFlags_halted (s : State) (z : Bool) : (s.setMulFlags z).halted = s.halted := rfl
@[simp] theorem State.setMulFlags_draws (s : State) (z : Bool) : (s.setMulFlags z).draws = s.draws := rfl

@[simp] theorem State.writePhys_cfg (s : State) (p : PhysReg) (v : Word) : (s.writePhys p v).cfg = s.cfg := rfl
@[simp] theorem State.writePhys_pc (s : State) (p : PhysReg) (v : Word) : (s.writePhys p v).pc = s.pc := rfl
@[simp] theorem State.writePhys_cpsr (s : State) (p : PhysReg) (v : Word) : (s.writePhys p v).cpsr = s.cpsr := rfl
@[simp] theorem State.writePhys_spsr (s : State) (p : PhysReg) (v : Word) : (s.writePhys p v).spsr = s.spsr := rfl
@[simp] theorem State.writePhys_mem (s : State) (p : PhysReg) (v : Word) : (s.writePhys p v).mem = s.mem := rfl
@[simp] theorem State.writePhys_channels (s : State) (p : PhysReg) (v : Word) : (s.writePhys p v).channels = s.channels := rfl
@[simp] theorem State.writePhys_events (s : State) (p : PhysReg) (v : Word) : (s.writePhys p v).events = s.events := rfl
@[simp] theorem State.writePhys_halted (s : State) (p : PhysReg) (v : Word) : (s.writePhys p v).halted = s.halted := rfl
@[simp] theorem State.writePhys_draws (s : State) (p : PhysReg) (v : Word) : (s.writePhys p v).draws = s.draws := rfl

@[simp] theorem State.writeReg_cfg (s : State) (r : Reg) (v : Word) : (s.writeReg r v).cfg = s.cfg := by unfold State.writeReg; split <;> rfl
@[simp] theorem State.writeReg_pc (s : State) (r : Reg) (v : Word) : (s.writeReg r v).pc = s.pc := by unfold State.writeReg; split <;> rfl
@[simp] theorem State.writeReg_cpsr (s : State) (r : Reg) (v : Word) : (s.writeReg r v).cpsr = s.cpsr := by unfold State.writeReg; split <;> rfl
@[simp] theorem State.writeReg_spsr (s : State) (r : Reg) (v : Word) : (s.writeReg r v).spsr = s.spsr := by unfold State.writeReg; split <;> rfl
@[simp] theorem State.writeReg_mem (s : State) (r : Reg) (v : Word) : (s.writeReg r v).mem = s.mem := by unfold State.writeReg; split <;> rfl
@[simp] theorem State.writeReg_channels (s : State) (r : Reg) (v : Word) : (s.writeReg r v).channels = s.channels := by unfold State.writeReg; split <;> rfl
@[simp] theorem State.writeReg_events (s : State) (r : Reg) (v : Word) : (s.writeReg r v).events = s.events := by unfold State.writeReg; split <;> rfl
@[simp] theorem State.writeReg_halted (s : State) (r : Reg) (v : Word) : (s.writeReg r v).halted = s.halted := by unfold State.writeReg; split <;> rfl
@[simp] theorem State.writeReg_draws (s : State) (r : Reg) (v : Word) : (s.writeReg r v).draws = s.draws := by unfold State.writeReg; split <;> rfl

@[simp] theorem State.writeRegs_cfg (s : State) (l : List (Reg × Word)) : (s.writeRegs l).cfg = s.cfg := by
  induction l generalizing s with
  | nil => rfl
  | cons x l ih => simp [State.writeRegs, ih]
@[simp] theorem State.writeRegs_pc (s : State) (l : List (Reg × Word)) : (s.writeRegs l).pc = s.pc := by
  induction l generalizing s with
  | nil => rfl
  | cons x l ih => simp [State.writeRegs, ih]
@[simp] theorem State.writeRegs_cpsr (s : State) (l : List (Reg × Word)) : (s.writeRegs l).cpsr = s.cpsr := by
  induction l generalizing s with
  | nil => rfl
  | cons x l ih => simp [State.writeRegs, ih]
@[simp] theorem State.writeRegs_spsr (s : State) (l : List (Reg × Word)) : (s.writeRegs l).spsr = s.spsr := by
  induction l generalizing s with
  | nil => rfl
  | cons x l ih => simp [State.writeRegs, ih]
@[simp] theorem State.writeRegs_mem (s : State) (l : List (Reg × Word)) : (s.writeRegs l).mem = s.mem := by
  induction l generalizing s with
  | nil => rfl
  | cons x l ih => simp [State.writeRegs, ih]
@[simp] theorem State.writeRegs_channels (s : State) (l : List (Reg × Word)) : (s.writeRegs l).channels = s.channels := by
  induction l generalizing s with
  | nil => rfl
  | cons x l ih => simp [State.writeRegs, ih]
@[simp] theorem State.writeRegs_events (s : State) (l : List (Reg × Word)) : (s.writeRegs l).events = s.events := by
  induction l generalizing s with
  | nil => rfl
  | cons x l ih => simp [State.writeRegs, ih]
@[simp] theorem State.writeRegs_halted (s : State) (l : List (Reg × Word)) : (s.writeRegs l).halted = s.halted := by
  induction l generalizing s with
  | nil => rfl
  | cons x l ih => simp [State.writeRegs, ih]
@[simp] theorem State.writeRegs_draws (s : State) (l : List (Reg × Word)) : (s.writeRegs l).draws = s.draws := by
  induction l generalizing s with
  | nil => rfl
  | cons x l ih => simp [State.writeRegs, ih]

@[simp] theorem State.writeBack_cfg (s : State) (r : Reg) (o : Option Word) : (s.writeBack r o).cfg = s.cfg := by cases o <;> simp [State.writeBack]
@[simp] theorem State.writeBack_pc (s : State) (r : Reg) (o : Option Word) : (s.writeBack r o).pc = s.pc := by cases o <;> simp [State.writeBack]
@[simp] theorem State.writeBack_cpsr (s : State) (r : Reg) (o : Option Word) : (s.writeBack r o).cpsr = s.cpsr := by cases o <;> simp [State.writeBack]
@[simp] theorem State.writeBack_spsr (s : State) (r : Reg) (o : Option Word) : (s.writeBack r o).spsr = s.spsr := by cases o <;> simp [State.writeBack]
@[simp] theorem State.writeBack_mem (s : State) (r : Reg) (o : Option Word) : (s.writeBack r o).mem = s.mem := by cases o <;> simp [State.writeBack]
@[simp] theorem State.writeBack_channels (s : State) (r : Reg) (o : Option Word) : (s.writeBack r o).channels = s.channels := by cases o <;> simp [State.writeBack]
@[simp] theorem State.writeBack_events (s : State) (r : Reg) (o : Option Word) : (s.writeBack r o).events = s.events := by cases o <;> simp [State.writeBack]
@[simp] theorem State.writeBack_halted (s : State) (r : Reg) (o : Option Word) : (s.writeBack r o).halted = s.halted := by cases o <;> simp [State.writeBack]
@[simp] theorem State.writeBack_draws (s : State) (r : Reg) (o : Option Word) : (s.writeBack r o).draws = s.draws := by cases o <;> simp [State.writeBack]

@[simp] theorem State.writePair_cfg (s : State) (hi lo : Reg) (r : BitVec 64) : (s.writePair hi lo r).cfg = s.cfg := by simp [State.writePair]
@[simp] theorem State.writePair_pc (s : State) (hi lo : Reg) (r : BitVec 64) : (s.writePair hi lo r).pc = s.pc := by simp [State.writePair]
@[simp] theorem State.writePair_cpsr (s : State) (hi lo : Reg) (r : BitVec 64) : (s.writePair hi lo r).cpsr = s.cpsr := by simp [State.writePair]
@[simp] theorem State.writePair_spsr (s : State) (hi lo : Reg) (r : BitVec 64) : (s.writePair hi lo r).spsr = s.spsr := by simp [State.writePair]
@[simp] theorem State.writePair_mem (s : State) (hi lo : Reg) (r : BitVec 64) : (s.writePair hi lo r).mem = s.mem := by simp [State.writePair]
@[simp] theorem State.writePair_channels (s : State) (hi lo : Reg) (r : BitVec 64) : (s.writePair hi lo r).channels = s.channels := by simp [State.writePair]
@[simp] theorem State.writePair_events (s : State) (hi lo : Reg) (r : BitVec 64) : (s.writePair hi lo r).events = s.events := by simp [State.writePair]
@[simp] theorem State.writePair_halted (s : State) (hi lo : Reg) (r : BitVec 64) : (s.writePair hi lo r).halted = s.halted := by simp [State.writePair]
@[simp] theorem State.writePair_draws (s : State) (hi lo : Reg) (r : BitVec 64) : (s.writePair hi lo r).draws = s.draws := by simp [State.writePair]

@[simp] theorem State.writePcThumb_cfg (s : State) (v : Word) : (s.writePcThumb v).cfg = s.cfg := rfl
@[simp] theorem State.writePcThumb_regs (s : State) (v : Word) : (s.writePcThumb v).regs = s.regs := rfl
@[simp] theorem State.writePcThumb_cpsr (s : State) (v : Word) : (s.writePcThumb v).cpsr = s.cpsr := rfl
@[simp] theorem State.writePcThumb_spsr (s : State) (v : Word) : (s.writePcThumb v).spsr = s.spsr := rfl
@[simp] theorem State.writePcThumb_mem (s : State) (v : Word) : (s.writePcThumb v).mem = s.mem := rfl
@[simp] theorem State.writePcThumb_channels (s : State) (v : Word) : (s.writePcThumb v).channels = s.channels := rfl
@[simp] theorem State.writePcThumb_events (s : State) (v : Word) : (s.writePcThumb v).events = s.events := rfl
@[simp] theorem State.writePcThumb_halted (s : State) (v : Word) : (s.writePcThumb v).halted = s.halted := rfl
@[simp] theorem State.writePcThumb_draws (s : State) (v : Word) : (s.writePcThumb v).draws = s.draws := rfl

/-! ### Status bits -/

/-- A status bit after one bit is set. -/
theorem setBit_getLsbD (v : Word) (k i : Nat) (b : Bool) (hk : k < 32) :
    (setBit v k b).getLsbD i = if i = k then b else v.getLsbD i := by
  unfold setBit
  by_cases hi : i < 32
  · cases b
    · simp only [Bool.false_eq_true, if_false, BitVec.getLsbD_and, BitVec.getLsbD_not, hi, decide_true, Bool.true_and]
      rw [put_getLsbD]
      by_cases h : i = k
      · simp [h, hk]
      · by_cases h2 : k ≤ i
        · simp [h, h2, BitVec.getLsbD_of_ge (1#1) (i - k) (by omega)]
        · simp [h, h2]
    · simp only [if_true, BitVec.getLsbD_or]
      rw [put_getLsbD]
      by_cases h : i = k
      · simp [h, hk]
      · by_cases h2 : k ≤ i
        · simp [h, h2, BitVec.getLsbD_of_ge (1#1) (i - k) (by omega)]
        · simp [h, h2]
  · rw [BitVec.getLsbD_of_ge _ i (by omega), BitVec.getLsbD_of_ge _ i (by omega)]
    simp; omega

/-- Setting a bit to what it is changes nothing. -/
theorem setBit_self (v : Word) (k : Nat) (hk : k < 32) : setBit v k (v.getLsbD k) = v := by
  apply BitVec.eq_of_getLsbD_eq
  intro i _
  rw [setBit_getLsbD _ _ _ _ hk]
  split <;> simp_all

/-- A bit above the mode field leaves the mode field alone. -/
theorem setBit_mode (v : Word) (k : Nat) (b : Bool) (h5 : 5 ≤ k) (hk : k < 32) : get (setBit v k b) 0 5 = get v 0 5 := by
  apply BitVec.eq_of_getLsbD_eq
  intro i hi
  rw [get_getLsbD, get_getLsbD, setBit_getLsbD _ _ _ _ hk]
  rw [if_neg (by omega)]

@[simp] theorem State.setN_mode? (s : State) (b : Bool) : (s.setN b).mode? = s.mode? := by
  simp [State.mode?, State.modeField, setBit_mode]
@[simp] theorem State.setZ_mode? (s : State) (b : Bool) : (s.setZ b).mode? = s.mode? := by
  simp [State.mode?, State.modeField, setBit_mode]
@[simp] theorem State.setC_mode? (s : State) (b : Bool) : (s.setC b).mode? = s.mode? := by
  simp [State.mode?, State.modeField, setBit_mode]
@[simp] theorem State.setV_mode? (s : State) (b : Bool) : (s.setV b).mode? = s.mode? := by
  simp [State.mode?, State.modeField, setBit_mode]
@[simp] theorem State.setQ_mode? (s : State) (b : Bool) : (s.setQ b).mode? = s.mode? := by
  simp [State.mode?, State.modeField, setBit_mode]
@[simp] theorem State.setThumb_mode? (s : State) (b : Bool) : (s.setThumb b).mode? = s.mode? := by
  simp [State.mode?, State.modeField, setBit_mode]
@[simp] theorem State.setBigEndian_mode? (s : State) (b : Bool) : (s.setBigEndian b).mode? = s.mode? := by
  simp [State.mode?, State.modeField, setBit_mode]

@[simp] theorem State.setOverflow_mode? (s : State) (o : Option Bool) : (s.setOverflow o).mode? = s.mode? := by
  cases o <;> simp [State.setOverflow]
@[simp] theorem State.setNZ_mode? (s : State) (v : Word) : (s.setNZ v).mode? = s.mode? := by simp [State.setNZ]
@[simp] theorem State.setFlags_mode? (s : State) (r : AluResult) : (s.setFlags r).mode? = s.mode? := by
  simp [State.setFlags]
@[simp] theorem State.setMulFlags_mode? (s : State) (z : Bool) : (s.setMulFlags z).mode? = s.mode? := by
  simp [State.setMulFlags]

/-- The mode, the state and the byte order depend on the CPSR alone. -/
theorem State.mode?_of_cpsr {s t : State} (h : t.cpsr = s.cpsr) : t.mode? = s.mode? := by
  simp [State.mode?, State.modeField, h]
theorem State.bank_of_mode? {s t : State} (h : t.mode? = s.mode?) : t.bank = s.bank := by simp [State.bank, h]
theorem State.bank_of_cpsr {s t : State} (h : t.cpsr = s.cpsr) : t.bank = s.bank :=
  State.bank_of_mode? (State.mode?_of_cpsr h)
theorem State.thumb_of_cpsr {s t : State} (h : t.cpsr = s.cpsr) : t.thumb = s.thumb := by simp [State.thumb, h]
theorem State.bigEndian_of_cpsr {s t : State} (h : t.cpsr = s.cpsr) : t.bigEndian = s.bigEndian := by
  simp [State.bigEndian, h]

@[simp] theorem State.advance_bank (s : State) : s.advance.bank = s.bank := rfl
@[simp] theorem State.advance_thumb (s : State) : s.advance.thumb = s.thumb := rfl
@[simp] theorem State.advance_bigEndian (s : State) : s.advance.bigEndian = s.bigEndian := rfl
@[simp] theorem State.advance_mode? (s : State) : s.advance.mode? = s.mode? := rfl
@[simp] theorem State.advance_pc (s : State) : s.advance.pc = s.pc + s.width := rfl
@[simp] theorem State.writeReg_bank (s : State) (r : Reg) (v : Word) : (s.writeReg r v).bank = s.bank :=
  State.bank_of_cpsr (by simp)
@[simp] theorem State.writeReg_mode? (s : State) (r : Reg) (v : Word) : (s.writeReg r v).mode? = s.mode? :=
  State.mode?_of_cpsr (by simp)
@[simp] theorem State.writeReg_thumb (s : State) (r : Reg) (v : Word) : (s.writeReg r v).thumb = s.thumb :=
  State.thumb_of_cpsr (by simp)

/-! ### Registers (10_state.md R22, R24) -/

theorem bankNumber_injective (a b : Bank) (h : bankNumber a = bankNumber b) : a = b := by
  cases a <;> cases b <;> first | rfl | exact absurd h (by decide)

/-- Two physical registers never share storage. -/
theorem physIndex_injective (p q : PhysReg) (h : physIndex p = physIndex q) : p = q := by
  have hv := congrArg Fin.val h
  cases p <;> cases q <;> rename_i a b <;> simp only [physIndex] at hv
  case low.low => exact congrArg _ (Fin.ext hv)
  case mid.mid => exact congrArg _ (Fin.ext (by omega))
  case midFiq.midFiq => exact congrArg _ (Fin.ext (by omega))
  case sp.sp => exact congrArg _ (bankNumber_injective _ _ (Fin.ext (by omega)))
  case lr.lr => exact congrArg _ (bankNumber_injective _ _ (Fin.ext (by omega)))
  all_goals omega

/-- In one view two register numbers name different storage. -/
theorem physReg_injective (b : Bank) (r q : Reg) (p : PhysReg) (hr : physReg b r = some p) (hq : physReg b q = some p) : r = q := by
  revert r q p
  cases b <;> decide

/-- R15 is the only number that names no general register. -/
theorem physReg_eq_none (b : Bank) (r : Reg) : physReg b r = none ↔ r = 15 := by
  revert r
  cases b <;> decide

theorem State.readPhys_writePhys (s : State) (p q : PhysReg) (v : Word) :
    (s.writePhys p v).readPhys q = if q = p then v else s.readPhys q := by
  unfold State.readPhys State.writePhys
  by_cases h : q = p
  · subst h; simp
  · have : (physIndex p).val ≠ (physIndex q).val := fun e => h (physIndex_injective _ _ (Fin.ext e)).symm
    simp [h, Fin.getElem_fin, Vector.getElem_set_ne _ _ this]

/-- A register read in the current view after a register write. -/
theorem State.readReg_writeReg (s : State) (r q : Reg) (v : Word) (hr : r ≠ 15) :
    (s.writeReg r v).readReg q = if q = r then v else s.readReg q := by
  unfold State.readReg
  rw [State.writeReg_bank]
  unfold State.readIn
  cases hq : physReg s.bank q with
  | none =>
    have h15 := (physReg_eq_none _ _).mp hq
    simp only
    rw [if_neg (by rw [h15]; exact hr.symm)]
    simp [State.pcRead]
  | some p =>
    cases hp : physReg s.bank r with
    | none => exact absurd ((physReg_eq_none _ _).mp hp) hr
    | some p' =>
      have hw : s.writeReg r v = s.writePhys p' v := by simp [State.writeReg, hp]
      simp only
      rw [hw, State.readPhys_writePhys]
      by_cases e : q = r
      · subst e
        have : p = p' := by rw [hq] at hp; exact Option.some.inj hp
        simp [this]
      · have : p ≠ p' := fun e' => e (physReg_injective s.bank q r p hq (by rw [hp, e']))
        simp [e, this]

/-- R15 is not written by a register write. -/
theorem State.writeReg_pc_reg (s : State) (v : Word) : s.writeReg 15 v = s := by
  have : physReg s.bank 15 = none := (physReg_eq_none _ _).mpr rfl
  simp [State.writeReg, this]

/-- A register write changes the register file alone, and depends on the file and the bank alone. -/
theorem State.writeReg_eq (s : State) (r : Reg) (v : Word) : s.writeReg r v = { s with regs := (s.writeReg r v).regs } := by
  unfold State.writeReg
  split <;> rfl

theorem State.writeReg_regs_congr {s t : State} (hr : t.regs = s.regs) (hb : t.bank = s.bank) (r : Reg) (v : Word) :
    (t.writeReg r v).regs = (s.writeReg r v).regs := by
  unfold State.writeReg State.writePhys
  rw [hb]
  split <;> simp [hr]

/-- A register read depends on the mode, the registers, the program counter and T alone. -/
theorem State.readReg_congr {s t : State} (hr : t.regs = s.regs) (hb : t.bank = s.bank) (r : Reg) (h15 : r ≠ 15) :
    t.readReg r = s.readReg r := by
  unfold State.readReg State.readIn State.readPhys
  rw [hb, hr]
  split
  · rfl
  · rename_i h; exact absurd ((physReg_eq_none _ _).mp h) h15

theorem State.readReg_advance (s : State) (r : Reg) (h15 : r ≠ 15) : s.advance.readReg r = s.readReg r :=
  State.readReg_congr (s := s) (t := s.advance) rfl rfl r h15

end Sys2Proof.Machine
end

