-- ==== Sys2Proof/Laws/Ops.lean ====
section
/-! SUPPORT. Laws/Ops.lean: for each shared operation, one lemma that says what it can do when it answers a next state. -/
namespace Sys2Proof.Machine
open Sys2Proof

/-! ### Results -/

theorem bind_ok {α β : Type} {x : Result α} {f : α → Result β} {b : β} :
    (x >>= f) = .ok b ↔ ∃ a, x = .ok a ∧ f a = .ok b := by
  cases x with
  | error e =>
    refine ⟨fun h => ?_, fun ⟨a, h, _⟩ => ?_⟩
    · cases h
    · cases h
  | ok a => exact ⟨fun h => ⟨a, rfl, h⟩, fun ⟨a', h, h'⟩ => by cases h; exact h'⟩

theorem pure_ok {α : Type} {a b : α} : (pure a : Result α) = .ok b ↔ a = b :=
  ⟨fun h => by cases h; rfl, fun h => by subst h; rfl⟩

theorem faultIf_ok {bad : Bool} {f : Fault} {u : Unit} : faultIf bad f = .ok u ↔ bad = false := by
  cases bad <;> simp [faultIf]

@[simp] theorem ok_bind {α β : Type} (a : α) (f : α → Result β) : ((Except.ok a : Result α) >>= f) = f a := rfl
@[simp] theorem error_bind {α β : Type} (e : Fault) (f : α → Result β) : ((Except.error e : Result α) >>= f) = .error e := rfl
@[simp] theorem faultIf_false (f : Fault) : faultIf false f = .ok () := rfl
@[simp] theorem faultIf_true (f : Fault) : faultIf true f = .error f := rfl
@[simp] theorem finish_ok (t : State) : finish (.ok t) = .next t := rfl
@[simp] theorem finish_error (f : Fault) : finish (.error f) = .fault f := rfl

theorem finish_next {r : Result State} {t : State} : finish r = .next t ↔ r = .ok t := by
  cases r <;> simp [finish]

theorem finish_fault {r : Result State} {f : Fault} : finish r = .fault f ↔ r = .error f := by
  cases r <;> simp [finish]

/-- A next state of an ARM instruction: the advance alone, or its effect. -/
theorem armExec_next {c : Cond} {effect : State → Result State} {s t : State} (h : armExec c effect s = .next t) :
    (s.condPassed c = false ∧ t = s.advance) ∨ (s.condPassed c = true ∧ effect s = .ok t) := by
  unfold armExec at h
  split at h
  · rename_i hc; exact .inr ⟨hc, finish_next.mp h⟩
  · rename_i hc; exact .inl ⟨by simpa using hc, by cases h; rfl⟩

theorem thumbExec_next {effect : State → Result State} {s t : State} (h : thumbExec effect s = .next t) : effect s = .ok t :=
  finish_next.mp h

theorem armExec_of_passed {c : Cond} {effect : State → Result State} {s : State} (h : s.condPassed c = true) :
    armExec c effect s = finish (effect s) := by simp [armExec, h]

theorem armExec_of_failed {c : Cond} {effect : State → Result State} {s : State} (h : s.condPassed c = false) :
    armExec c effect s = .next s.advance := by simp [armExec, h]

/-! ### The bus: what an access leaves alone (20_memory.md R63, R75 to R77) -/

/-- Channel reads draw answers and record events, nothing else. -/
theorem readChannels_frame (a : Word) (w : Width) (l : List Channel) (s : State) :
    State.readChannels a w l s =
      { s with events := (State.readChannels a w l s).events, draws := s.draws + l.length } ∧
    s.events <+: (State.readChannels a w l s).events := by
  induction l generalizing s with
  | nil => exact ⟨rfl, List.prefix_refl _⟩
  | cons c l ih =>
    obtain ⟨h1, h2⟩ := ih { s with events := s.events ++ [.channelRead c.id (a.toNat - c.base) w (s.answer w)],
                                   draws := s.draws + 1 }
    simp only [State.readChannels]
    refine ⟨?_, (List.prefix_append _ _).trans h2⟩
    rw [h1]
    simp only [List.length_cons, State.mk.injEq, true_and]
    omega

/-- Channel writes record events, nothing else. -/
theorem writeChannels_frame (a : Word) (w : Width) (v : Word) (l : List Channel) (s : State) :
    State.writeChannels a w v l s = { s with events := (State.writeChannels a w v l s).events } ∧
    s.events <+: (State.writeChannels a w v l s).events := by
  induction l generalizing s with
  | nil => exact ⟨rfl, List.prefix_refl _⟩
  | cons c l ih =>
    obtain ⟨h1, h2⟩ := ih { s with events := s.events ++ [.channelWrite c.id (a.toNat - c.base) w (truncate w v)] }
    simp only [State.writeChannels]
    refine ⟨?_, (List.prefix_append _ _).trans h2⟩
    rw [h1]

/-- What bus reads can change: the history, which grows, and the draws. -/
structure ReadFrame (s t : State) : Prop where
  eq : t = { s with events := t.events, draws := t.draws }
  events : s.events <+: t.events
  draws : s.draws ≤ t.draws

/-- What bus accesses can change: internal memory, the history and the draws. -/
structure BusFrame (s t : State) : Prop where
  eq : t = { s with mem := t.mem, events := t.events, draws := t.draws }
  events : s.events <+: t.events
  draws : s.draws ≤ t.draws
  memOk : s.MemOk → t.MemOk

theorem ReadFrame.refl (s : State) : ReadFrame s s := ⟨rfl, List.prefix_refl _, Nat.le_refl _⟩

theorem ReadFrame.trans {s t u : State} (h1 : ReadFrame s t) (h2 : ReadFrame t u) : ReadFrame s u := by
  refine ⟨?_, h1.events.trans h2.events, Nat.le_trans h1.draws h2.draws⟩
  rw [h2.eq, h1.eq]

theorem ReadFrame.mem {s t : State} (h : ReadFrame s t) : t.mem = s.mem := by rw [h.eq]

theorem ReadFrame.bus {s t : State} (h : ReadFrame s t) : BusFrame s t :=
  ⟨by rw [h.eq], h.events, h.draws, fun hm => by rw [h.eq]; exact hm⟩

theorem BusFrame.refl (s : State) : BusFrame s s := (ReadFrame.refl s).bus

theorem BusFrame.trans {s t u : State} (h1 : BusFrame s t) (h2 : BusFrame t u) : BusFrame s u := by
  refine ⟨?_, h1.events.trans h2.events, Nat.le_trans h1.draws h2.draws, fun h => h2.memOk (h1.memOk h)⟩
  rw [h2.eq, h1.eq]

theorem BusFrame.cfg {s t : State} (h : BusFrame s t) : t.cfg = s.cfg := by rw [h.eq]
theorem BusFrame.regs {s t : State} (h : BusFrame s t) : t.regs = s.regs := by rw [h.eq]
theorem BusFrame.pc {s t : State} (h : BusFrame s t) : t.pc = s.pc := by rw [h.eq]
theorem BusFrame.cpsr {s t : State} (h : BusFrame s t) : t.cpsr = s.cpsr := by rw [h.eq]
theorem BusFrame.spsr {s t : State} (h : BusFrame s t) : t.spsr = s.spsr := by rw [h.eq]
theorem BusFrame.channels {s t : State} (h : BusFrame s t) : t.channels = s.channels := by rw [h.eq]
theorem BusFrame.halted {s t : State} (h : BusFrame s t) : t.halted = s.halted := by rw [h.eq]

theorem memRead_frame {s t : State} {a v : Word} {w : Width} (h : s.memRead a w = .ok (v, t)) : ReadFrame s t := by
  unfold State.memRead at h
  split at h
  · cases h; exact ReadFrame.refl s
  · split at h
    · injection h with h
      unfold State.channelRead at h
      split at h
      · cases h; exact ReadFrame.refl s
      · rename_i c cs _
        injection h with _ h
        obtain ⟨h1, h2⟩ := readChannels_frame a w (c :: cs) s
        subst h
        refine ⟨?_, h2, ?_⟩
        · rw [h1]
        · rw [h1]; exact Nat.le_add_right _ _
    · cases h

/-- Internal memory is read as its bytes; the state is unchanged (R63, R64). -/
theorem memRead_internal {s : State} {a : Word} {w : Width} (h : s.internal a w = true) :
    s.memRead a w = .ok (assemble s.bigEndian (s.mem.readBytes a.toNat (widthBytes w)), s) := by
  simp [State.memRead, h]

theorem memWrite_internal {s : State} {a v : Word} {w : Width} (h : s.internal a w = true) :
    s.memWrite a w v =
      .ok { s with mem := s.mem.writeBytes a.toNat (disassemble s.bigEndian (widthBytes w) v) } := by
  simp [State.memWrite, h]

theorem memWrite_frame {s t : State} {a v : Word} {w : Width} (h : s.memWrite a w v = .ok t) : BusFrame s t := by
  unfold State.memWrite at h
  split at h
  · rename_i hin
    cases h
    refine ⟨rfl, List.prefix_refl _, Nat.le_refl _, fun hm => ⟨Memory.wf_writeBytes hm.1 _ _, fun x hx => ?_⟩⟩
    rcases Memory.mem_writeBytes hx with ⟨_, h2⟩ | hx
    · rw [disassemble_length] at h2
      simp only [State.internal, decide_eq_true_eq] at hin
      simp only
      omega
    · exact hm.2 x hx
  · split at h
    · cases h
      obtain ⟨h1, h2⟩ := writeChannels_frame a w v (s.matching a) s
      refine ⟨?_, h2, ?_, fun hm => ?_⟩
      · unfold State.channelWrite; rw [h1]
      · unfold State.channelWrite; rw [h1]
      · unfold State.channelWrite; rw [h1]; exact hm
    · cases h

/-- Outside the bytes of the access, internal memory reads as before. -/
theorem memWrite_outside {s t : State} {a v : Word} {w : Width} (h : s.memWrite a w v = .ok t) (c : Nat)
    (hc : c < a.toNat ∨ a.toNat + widthBytes w ≤ c) : Memory.read t.mem c = Memory.read s.mem c := by
  unfold State.memWrite at h
  split at h
  · cases h
    exact Memory.read_writeBytes_of_outside _ _ _ _ (by rw [disassemble_length]; exact hc)
  · split at h
    · cases h
      unfold State.channelWrite
      rw [(writeChannels_frame a w v (s.matching a) s).1]
    · cases h

/-! ### Data accesses (20_memory.md R69 to R73) -/

theorem readExact_frame {s t : State} {k : LoadKind} {a v : Word} (h : s.readExact k a = .ok (v, t)) : ReadFrame s t := by
  obtain ⟨⟨v', t'⟩, h1, h2⟩ := bind_ok.mp h
  cases h2
  exact memRead_frame h1

theorem readArm7_frame {s t : State} {k : LoadKind} {a v : Word} (h : s.readArm7 k a = .ok (v, t)) : ReadFrame s t := by
  cases k <;> simp only [State.readArm7] at h
  · obtain ⟨⟨v', t'⟩, h1, h2⟩ := bind_ok.mp h
    cases h2
    exact memRead_frame h1
  · obtain ⟨⟨v', t'⟩, h1, h2⟩ := bind_ok.mp h
    cases h2
    exact memRead_frame h1
  all_goals exact readExact_frame h

theorem dataRead_frame {s t : State} {k : LoadKind} {a v : Word} (h : s.dataRead k a = .ok (v, t)) : ReadFrame s t := by
  unfold State.dataRead at h
  split at h
  · split at h
    · cases h
    · split at h
      · cases h
      · exact readArm7_frame h
    · exact readExact_frame h
  · exact readExact_frame h

/-- Where a data write goes: the address, or the address aligned down. -/
theorem dataWrite_memWrite {s t : State} {w : Width} {a v : Word} (h : s.dataWrite w a v = .ok t) :
    s.memWrite a w v = .ok t ∨ (s.cfg.misalign = .arm7 ∧ s.memWrite (alignDown w a) w v = .ok t) := by
  unfold State.dataWrite at h
  split at h
  · split at h
    · cases h
    · rename_i hp
      split at h
      · cases h
      · exact .inr ⟨hp, h⟩
    · exact .inl h
  · exact .inl h

theorem dataWrite_frame {s t : State} {w : Width} {a v : Word} (h : s.dataWrite w a v = .ok t) : BusFrame s t := by
  rcases dataWrite_memWrite h with h | ⟨_, h⟩ <;> exact memWrite_frame h

theorem readBlock_frame {s t : State} {a : Word} {n : Nat} {vs : List Word} (h : s.readBlock a n = .ok (vs, t)) :
    ReadFrame s t ∧ vs.length = n := by
  induction n generalizing s a vs with
  | zero => cases h; exact ⟨ReadFrame.refl _, rfl⟩
  | succ n ih =>
    obtain ⟨⟨v, s1⟩, h1, h⟩ := bind_ok.mp h
    obtain ⟨⟨vs', s2⟩, h2, h⟩ := bind_ok.mp h
    cases h
    obtain ⟨h3, h4⟩ := ih h2
    exact ⟨(memRead_frame h1).trans h3, by simp [h4]⟩

theorem writeBlock_frame {s t : State} {a : Word} {vs : List Word} (h : s.writeBlock a vs = .ok t) : BusFrame s t := by
  induction vs generalizing s a with
  | nil => cases h; exact BusFrame.refl _
  | cons v vs ih =>
    obtain ⟨s1, h1, h⟩ := bind_ok.mp h
    exact (memWrite_frame h1).trans (ih h)

/-! ### Status-register writes (10_state.md R33 to R36) -/

theorem writeCpsr_ok {s t : State} {v : Word} (h : s.writeCpsr v = .ok t) :
    t = { s with cpsr := v } ∧ (modeOf (get v 0 5)).isSome = true := by
  unfold State.writeCpsr at h
  split at h
  · rename_i hm; cases h; exact ⟨rfl, by simp [hm]⟩
  · cases h

theorem readSpsr_ok {s : State} {v : Word} (h : s.readSpsr = .ok v) : ∃ k, s.spsr? = some k ∧ v = s.spsr[k] := by
  unfold State.readSpsr at h
  split at h
  · rename_i k hk; cases h; exact ⟨k, hk, rfl⟩
  · cases h

theorem writeSpsr_ok {s t : State} {v : Word} (h : s.writeSpsr v = .ok t) :
    ∃ k, s.spsr? = some k ∧ t = { s with spsr := s.spsr.set k v k.isLt } := by
  unfold State.writeSpsr at h
  split at h
  · rename_i k hk; cases h; exact ⟨k, hk, rfl⟩
  · cases h

theorem restoreCpsr_ok {s t : State} (h : s.restoreCpsr = .ok t) :
    ∃ k, s.spsr? = some k ∧ t = { s with cpsr := s.spsr[k] } ∧ (modeOf (get s.spsr[k] 0 5)).isSome = true := by
  obtain ⟨v, h1, h2⟩ := bind_ok.mp h
  obtain ⟨k, hk, rfl⟩ := readSpsr_ok h1
  obtain ⟨h3, h4⟩ := writeCpsr_ok h2
  exact ⟨k, hk, h3, h4⟩

theorem readSpsr_of_some {s : State} {k : Fin 5} (h : s.spsr? = some k) : s.readSpsr = .ok s.spsr[k] := by
  simp only [State.readSpsr, h]

theorem readSpsr_of_none {s : State} (h : s.spsr? = none) : s.readSpsr = .error .noSpsr := by
  simp only [State.readSpsr, h]

theorem writeCpsr_of_legal (s : State) {v : Word} (h : (modeOf (get v 0 5)).isSome = true) :
    s.writeCpsr v = .ok { s with cpsr := v } := by
  obtain ⟨m, h⟩ := Option.isSome_iff_exists.mp h
  simp only [State.writeCpsr, h]

theorem writeCpsr_of_illegal (s : State) {v : Word} (h : modeOf (get v 0 5) = none) :
    s.writeCpsr v = .error (.illegalMode (get v 0 5)) := by
  simp only [State.writeCpsr, h]

/-- The restore, when the mode has an SPSR with a legal mode field. -/
theorem restoreCpsr_of_legal {s : State} {k : Fin 5} (h : s.spsr? = some k) (hm : (modeOf (get s.spsr[k] 0 5)).isSome = true) :
    s.restoreCpsr = .ok { s with cpsr := s.spsr[k] } := by
  unfold State.restoreCpsr
  rw [readSpsr_of_some h]
  exact writeCpsr_of_legal s hm

theorem restoreCpsr_of_illegal {s : State} {k : Fin 5} (h : s.spsr? = some k) (hm : modeOf (get s.spsr[k] 0 5) = none) :
    s.restoreCpsr = .error (.illegalMode (get s.spsr[k] 0 5)) := by
  unfold State.restoreCpsr
  rw [readSpsr_of_some h]
  exact writeCpsr_of_illegal s hm

theorem restoreCpsr_of_none {s : State} (h : s.spsr? = none) : s.restoreCpsr = .error .noSpsr := by
  unfold State.restoreCpsr
  rw [readSpsr_of_none h]
  rfl

/-- User mode has no SPSR (R33). -/
theorem spsr?_of_isUser {s : State} (h : s.isUser = true) : s.spsr? = none := by
  have : s.mode? = some .usr := by simpa [State.isUser] using h
  simp [State.spsr?, this, spsrOf]

/-! ### Program-counter writes (40_core_condition_shifter.md R165 to R169) -/

/-- The two low bits of a word are 0 when it is a multiple of 4. -/
theorem get_two_eq_zero (v : Word) : get v 0 2 = 0 ↔ v.toNat % 4 = 0 := by
  rw [← BitVec.toNat_inj]
  simp [get]

theorem writePcArm_eq (s : State) (v : Word) :
    s.writePcArm v = if v.toNat % 4 = 0 then .ok { s with pc := v } else .error (.unpredictable .unalignedPcWrite) := by
  simp only [State.writePcArm, get_two_eq_zero]

theorem writePcInterwork_eq (s : State) (v : Word) :
    s.writePcInterwork v =
      if v.getLsbD 0 then .ok { s.setThumb true with pc := v &&& 0xFFFFFFFE#32 }
      else if v.getLsbD 1 then .error (.unpredictable .bxUnalignedArm)
      else .ok { s.setThumb false with pc := v } := rfl

theorem writePcAfterRestore_eq (s : State) (v : Word) :
    s.writePcAfterRestore v = if s.thumb then .ok { s with pc := v &&& 0xFFFFFFFE#32 } else s.writePcArm v := rfl

theorem writePcArm_ok {s t : State} {v : Word} (h : s.writePcArm v = .ok t) : t = { s with pc := v } ∧ get v 0 2 = 0 := by
  unfold State.writePcArm at h
  split at h
  · rename_i hv; cases h; exact ⟨rfl, hv⟩
  · cases h

theorem writePcInterwork_ok {s t : State} {v : Word} (h : s.writePcInterwork v = .ok t) :
    (v.getLsbD 0 = true ∧ t = { s.setThumb true with pc := v &&& ~~~1#32 }) ∨
    (get v 0 2 = 0 ∧ t = { s.setThumb false with pc := v }) := by
  unfold State.writePcInterwork at h
  split at h
  · rename_i h0; cases h; exact .inl ⟨h0, rfl⟩
  · rename_i h0
    split at h
    · cases h
    · rename_i h1
      cases h
      refine .inr ⟨?_, rfl⟩
      apply BitVec.eq_of_getLsbD_eq
      intro i hi
      rw [get_getLsbD]
      have : i = 0 ∨ i = 1 := by omega
      rcases this with rfl | rfl
      · simpa using h0
      · simpa using h1

theorem writePcPop_ok {s t : State} {v : Word} (h : s.writePcPop v = .ok t) :
    v.getLsbD 0 = true ∧ t = { s with pc := v &&& ~~~1#32 } := by
  unfold State.writePcPop at h
  split at h
  · rename_i h0; cases h; exact ⟨h0, rfl⟩
  · cases h

theorem writePcAfterRestore_ok {s t : State} {v : Word} (h : s.writePcAfterRestore v = .ok t) :
    (s.thumb = true ∧ t = { s with pc := v &&& ~~~1#32 }) ∨
    (s.thumb = false ∧ get v 0 2 = 0 ∧ t = { s with pc := v }) := by
  unfold State.writePcAfterRestore at h
  split at h
  · rename_i ht; cases h; exact .inl ⟨ht, rfl⟩
  · rename_i ht
    obtain ⟨h1, h2⟩ := writePcArm_ok h
    exact .inr ⟨by simpa using ht, h2, h1⟩

end Sys2Proof.Machine
end

