-- ==== Sys2Proof/Laws/Claims.lean ====
section
/-! SUPPORT. Laws/Claims.lean: the machine's status-word and arithmetic operations in the terms of Claims.lean. -/
namespace Sys2Proof.Claims
open Sys2Proof Sys2Proof.Machine

/-! ### Flags -/

theorem flagBits_getLsbD (b : Bool) (i : Nat) : (flagBits b).getLsbD i = (decide (i = 0) && b) := by
  cases b <;> simp [flagBits]

/-- A status word's bit after its four flags are replaced. -/
theorem withNZCV_getLsbD (v : Word) (n z c o : Bool) (i : Nat) : (withNZCV v n z c o).getLsbD i =
    if i = 31 then n else if i = 30 then z else if i = 29 then c else if i = 28 then o else v.getLsbD i := by
  by_cases hi : i < 32
  · simp only [withNZCV, BitVec.getLsbD_or, BitVec.getLsbD_and, put_getLsbD, flagBits_getLsbD]
    interval_cases i <;> simp
  · rw [BitVec.getLsbD_of_ge _ _ (by omega), BitVec.getLsbD_of_ge _ _ (by omega)]
    repeat rw [if_neg (by omega)]

/-- A status word's bit after T is replaced. -/
theorem withThumb_getLsbD (v : Word) (t : Bool) (i : Nat) : (withThumb v t).getLsbD i = if i = 5 then t else v.getLsbD i := by
  by_cases hi : i < 32
  · simp only [withThumb, BitVec.getLsbD_or, BitVec.getLsbD_and, put_getLsbD, flagBits_getLsbD]
    interval_cases i <;> simp
  · rw [BitVec.getLsbD_of_ge _ _ (by omega), BitVec.getLsbD_of_ge _ _ (by omega)]
    rw [if_neg (by omega)]

theorem setBits_eq (v : Word) (n z c o : Bool) : setBit (setBit (setBit (setBit v 31 n) 30 z) 29 c) 28 o = withNZCV v n z c o := by
  apply BitVec.eq_of_getLsbD_eq
  intro i hi
  simp only [setBit_getLsbD, withNZCV_getLsbD, Nat.reduceLT]
  split_ifs <;> first | rfl | omega

theorem setThumb_eq (s : State) (t : Bool) : s.setThumb t = { s with cpsr := withThumb s.cpsr t } := by
  unfold State.setThumb
  congr 1
  apply BitVec.eq_of_getLsbD_eq
  intro i hi
  simp only [setBit_getLsbD, withThumb_getLsbD, Nat.reduceLT]

/-- N and Z of a result, C given, V kept. -/
theorem setNZC_eq (s : State) (r : Word) (c : Bool) : (s.setNZ r).setC c = { s with cpsr := flagsOf s r c s.flagV } := by
  unfold State.setNZ State.setC State.setZ State.setN
  congr 1
  simp only [flagsOf, ← setBits_eq]
  rw [eq_comm]
  convert setBit_self _ 28 (by omega) using 2
  simp only [setBit_getLsbD, Nat.reduceLT, State.flagV]
  rfl

/-- N and Z of a result, C and V kept. -/
theorem setNZ_eq (s : State) (r : Word) : s.setNZ r = { s with cpsr := flagsOf s r s.flagC s.flagV } := by
  rw [← setNZC_eq]
  unfold State.setNZ State.setC State.setZ State.setN
  congr 1
  rw [eq_comm]
  convert setBit_self _ 29 (by omega) using 2
  simp only [setBit_getLsbD, Nat.reduceLT, State.flagC]
  rfl

theorem setFlags_logical (s : State) (r : Word) (c : Bool) :
    s.setFlags (logical r c) = { s with cpsr := flagsOf s r c s.flagV } := setNZC_eq s r c

theorem setFlags_arithmetic (s : State) (r : Sum) :
    s.setFlags (arithmetic r) = { s with cpsr := flagsOf s r.value r.carry r.overflow } := by
  unfold State.setFlags arithmetic State.setOverflow State.setNZ State.setC State.setZ State.setN State.setV
  simp only [setBits_eq, flagsOf]

theorem setMulFlags_eq (s : State) (z : Bool) : s.setMulFlags z = { s with cpsr := withNZCV s.cpsr s.flagN z false s.flagV } := by
  unfold State.setMulFlags State.setZ State.setC
  congr 1
  apply BitVec.eq_of_getLsbD_eq
  intro i hi
  simp only [setBit_getLsbD, withNZCV_getLsbD, Nat.reduceLT, State.flagN, State.flagV]
  split_ifs <;> simp_all

/-! ### Bytes (20_memory.md R64) -/

theorem disassemble_word (s : State) (v : Word) : disassemble s.bigEndian 4 v = wordBytes s v := by
  have e : bytesOfWord 4 v = [v.extractLsb' 0 8, v.extractLsb' 8 8, v.extractLsb' 16 8, v.extractLsb' 24 8] := by
    simp only [bytesOfWord, List.cons.injEq, and_true]
    refine ⟨?_, ?_, ?_, ?_⟩ <;> apply BitVec.eq_of_getLsbD_eq <;> intro i hi <;> simp [hi]
  unfold disassemble wordBytes
  rw [e]
  rfl

theorem disassemble_half (s : State) (v : Word) : disassemble s.bigEndian 2 v = halfBytes s v := by
  have e : bytesOfWord 2 v = [v.extractLsb' 0 8, v.extractLsb' 8 8] := by
    simp only [bytesOfWord, List.cons.injEq, and_true]
    refine ⟨?_, ?_⟩ <;> apply BitVec.eq_of_getLsbD_eq <;> intro i hi <;> simp [hi]
  unfold disassemble halfBytes
  rw [e]
  rfl

theorem disassemble_byte (big : Bool) (v : Word) : disassemble big 1 v = [v.extractLsb' 0 8] := by
  have e : bytesOfWord 1 v = [v.extractLsb' 0 8] := by
    simp only [bytesOfWord, List.cons.injEq, and_true]
    apply BitVec.eq_of_getLsbD_eq; intro i hi; simp [hi]
  unfold disassemble
  rw [e]
  cases big <;> rfl

/-- The bytes of an access, by width. -/
theorem disassemble_width (s : State) (w : Width) (v : Word) : disassemble s.bigEndian (widthBytes w) v = widthBytesOf s w v := by
  cases w
  · exact disassemble_byte _ v
  · exact disassemble_half s v
  · exact disassemble_word s v

/-- A value truncated to the width has the same bytes. -/
theorem widthBytesOf_truncate (s : State) (w : Width) (v : Word) : widthBytesOf s w (truncate w v) = widthBytesOf s w v := by
  cases w
  · simp only [widthBytesOf, truncate, List.cons.injEq, and_true]
    apply BitVec.eq_of_getLsbD_eq; intro i hi
    simp [hi, show i < 32 by omega]
  · have e1 : ((v.setWidth 16).setWidth 32).extractLsb' 0 8 = v.extractLsb' 0 8 := by
      apply BitVec.eq_of_getLsbD_eq; intro i hi
      simp [hi, show i < 32 by omega, show i < 16 by omega]
    have e2 : ((v.setWidth 16).setWidth 32).extractLsb' 8 8 = v.extractLsb' 8 8 := by
      apply BitVec.eq_of_getLsbD_eq; intro i hi
      simp [hi, show 8 + i < 32 by omega, show 8 + i < 16 by omega]
    simp only [widthBytesOf, truncate, halfBytes, e1, e2]
  · rfl

/-- The value of the bytes of an access, by width. -/
theorem assemble_width (s : State) (w : Width) (a : Nat) :
    assemble s.bigEndian (s.mem.readBytes a (widthBytes w)) = valueAt s w a := by
  cases w
  · unfold assemble valueAt byteAt
    cases s.bigEndian <;> simp [widthBytes, Memory.readBytes, wordOfBytes]
  · unfold assemble valueAt halfAt byteAt
    cases s.bigEndian
    · simp only [widthBytes, Memory.readBytes, Bool.false_eq_true, if_false, wordOfBytes]
      apply BitVec.eq_of_getLsbD_eq; intro i hi
      simp only [BitVec.getLsbD_or, BitVec.getLsbD_setWidth, BitVec.getLsbD_shiftLeft, BitVec.getLsbD_append, hi, decide_true,
        Bool.true_and]
      by_cases h : i < 8
      · simp [h]
      · simp [h, show i - 8 < 32 by omega, BitVec.getLsbD_of_ge (Memory.read s.mem a) i (by omega)]
    · simp only [widthBytes, Memory.readBytes, if_true, wordOfBytes, List.reverse_cons, List.reverse_nil, List.nil_append,
        List.cons_append]
      apply BitVec.eq_of_getLsbD_eq; intro i hi
      simp only [BitVec.getLsbD_or, BitVec.getLsbD_setWidth, BitVec.getLsbD_shiftLeft, BitVec.getLsbD_append, hi, decide_true,
        Bool.true_and]
      by_cases h : i < 8
      · simp [h]
      · simp [h, show i - 8 < 32 by omega, BitVec.getLsbD_of_ge (Memory.read s.mem (a + 1)) i (by omega)]
  · have key : ∀ b0 b1 b2 b3 : Byte, wordOfBytes [b0, b1, b2, b3] = b3 ++ b2 ++ b1 ++ b0 := by
      intro b0 b1 b2 b3
      apply BitVec.eq_of_getLsbD_eq; intro i hi
      simp only [wordOfBytes, BitVec.getLsbD_or, BitVec.getLsbD_setWidth, BitVec.getLsbD_shiftLeft, BitVec.getLsbD_append, hi,
        decide_true, Bool.true_and]
      interval_cases i <;> simp
    unfold assemble valueAt wordAt byteAt
    cases s.bigEndian <;> simp only [widthBytes, Memory.readBytes, Bool.false_eq_true, if_false, if_true, List.reverse_cons,
      List.reverse_nil, List.nil_append, List.cons_append, key, Nat.add_assoc, Nat.reduceAdd]

end Sys2Proof.Claims
end

