-- ==== Sys2Proof/Laws/Access.lean ====
section
/-! SUPPORT. Laws/Access.lean: an access does not see the program counter, so it commutes with the advance; the block transfers and the
alignment policy in the terms of Claims.lean. -/
namespace Sys2Proof.Claims
open Sys2Proof Sys2Proof.Machine

/-! ### The program counter moved before or after an access -/

/-- The state with its program counter replaced. -/
def atPc (p : Word) (s : State) : State := { s with pc := p }

@[simp] theorem atPc_pc (p : Word) (s : State) : (atPc p s).pc = p := rfl
@[simp] theorem atPc_self (s : State) : atPc s.pc s = s := rfl
@[simp] theorem atPc_atPc (p q : Word) (s : State) : atPc p (atPc q s) = atPc p s := rfl
@[simp] theorem atPc_cfg (p : Word) (s : State) : (atPc p s).cfg = s.cfg := rfl
@[simp] theorem atPc_mem (p : Word) (s : State) : (atPc p s).mem = s.mem := rfl
@[simp] theorem atPc_bigEndian (p : Word) (s : State) : (atPc p s).bigEndian = s.bigEndian := rfl
@[simp] theorem atPc_matching (p a : Word) (s : State) : (atPc p s).matching a = s.matching a := rfl
@[simp] theorem atPc_internal (p a : Word) (w : Width) (s : State) : (atPc p s).internal a w = s.internal a w := rfl
@[simp] theorem atPc_external (p a : Word) (s : State) : (atPc p s).external a = s.external a := rfl
@[simp] theorem atPc_answer (p : Word) (w : Width) (s : State) : (atPc p s).answer w = s.answer w := rfl

theorem advance_eq_atPc (s : State) : s.advance = atPc (s.pc + s.width) s := rfl

theorem readChannels_atPc (p a : Word) (w : Width) (l : List Channel) (s : State) :
    State.readChannels a w l (atPc p s) = atPc p (State.readChannels a w l s) := by
  induction l generalizing s with
  | nil => rfl
  | cons c cs ih => rw [State.readChannels, State.readChannels, ← ih]; rfl

theorem writeChannels_atPc (p a : Word) (w : Width) (v : Word) (l : List Channel) (s : State) :
    State.writeChannels a w v l (atPc p s) = atPc p (State.writeChannels a w v l s) := by
  induction l generalizing s with
  | nil => rfl
  | cons c cs ih => rw [State.writeChannels, State.writeChannels, ← ih]; rfl

theorem channelRead_atPc (p a : Word) (w : Width) (s : State) :
    (atPc p s).channelRead a w = ((s.channelRead a w).1, atPc p (s.channelRead a w).2) := by
  simp only [State.channelRead, atPc_matching, atPc_answer]
  cases s.matching a with
  | nil => rfl
  | cons c cs => simp only [readChannels_atPc]

theorem memRead_atPc (p a : Word) (w : Width) (s : State) :
    (atPc p s).memRead a w = (s.memRead a w).map fun x => (x.1, atPc p x.2) := by
  unfold State.memRead
  rw [atPc_internal, atPc_external, atPc_bigEndian, atPc_mem, channelRead_atPc]
  cases s.internal a w <;> cases s.external a <;> rfl

theorem memWrite_atPc (p a : Word) (w : Width) (v : Word) (s : State) :
    (atPc p s).memWrite a w v = (s.memWrite a w v).map (atPc p) := by
  unfold State.memWrite State.channelWrite
  rw [atPc_internal, atPc_external, atPc_bigEndian, atPc_mem, atPc_matching, writeChannels_atPc]
  cases s.internal a w <;> cases s.external a <;> rfl

theorem readExact_atPc (p a : Word) (k : LoadKind) (s : State) :
    (atPc p s).readExact k a = (s.readExact k a).map fun x => (x.1, atPc p x.2) := by
  unfold State.readExact
  rw [memRead_atPc]
  cases s.memRead a (loadWidth k) <;> rfl

theorem readArm7_atPc (p a : Word) (k : LoadKind) (s : State) :
    (atPc p s).readArm7 k a = (s.readArm7 k a).map fun x => (x.1, atPc p x.2) := by
  cases k <;> simp only [State.readArm7, readExact_atPc, memRead_atPc]
  · cases s.memRead (alignDown .word a) .word <;> rfl
  · cases s.memRead (alignDown .half a) .half <;> rfl

theorem dataRead_atPc (p a : Word) (k : LoadKind) (s : State) :
    (atPc p s).dataRead k a = (s.dataRead k a).map fun x => (x.1, atPc p x.2) := by
  unfold State.dataRead
  rw [atPc_cfg, atPc_bigEndian, readExact_atPc, readArm7_atPc]
  cases misaligned (loadWidth k) a <;> cases s.cfg.misalign <;> cases s.bigEndian <;> rfl

theorem dataWrite_atPc (p a : Word) (w : Width) (v : Word) (s : State) :
    (atPc p s).dataWrite w a v = (s.dataWrite w a v).map (atPc p) := by
  unfold State.dataWrite
  rw [atPc_cfg, atPc_bigEndian, memWrite_atPc, memWrite_atPc]
  cases misaligned w a <;> cases s.cfg.misalign <;> cases s.bigEndian <;> rfl

/-- Whatever a bus access leaves alone, it leaves the width and the program counter alone. -/
theorem advance_of_bus {s t : State} (h : BusFrame s t) : t.advance = atPc (s.pc + s.width) t := by
  have hw : t.width = s.width := congrArg (fun c : Word => if c.getLsbD 5 then (2 : Word) else 4) h.cpsr
  rw [advance_eq_atPc, hw, h.pc]

/-- A load from the advanced state is the load from the state before, advanced after. -/
theorem dataRead_advance (a : Word) (k : LoadKind) (s : State) :
    s.advance.dataRead k a = (s.dataRead k a).map fun x => (x.1, x.2.advance) := by
  rw [advance_eq_atPc, dataRead_atPc]
  cases h : s.dataRead k a with
  | error f => rfl
  | ok x => simp only [Except.map, advance_of_bus (dataRead_frame (v := x.1) (t := x.2) h).bus]

/-- A store from the advanced state is the store from the state before, advanced after. -/
theorem dataWrite_advance (a : Word) (w : Width) (v : Word) (s : State) :
    s.advance.dataWrite w a v = (s.dataWrite w a v).map State.advance := by
  rw [advance_eq_atPc, dataWrite_atPc]
  cases h : s.dataWrite w a v with
  | error f => rfl
  | ok t => simp only [Except.map, advance_of_bus (dataWrite_frame h)]

theorem readBlock_atPc (p a : Word) (n : Nat) (s : State) :
    (atPc p s).readBlock a n = (s.readBlock a n).map fun x => (x.1, atPc p x.2) := by
  induction n generalizing a s with
  | zero => rfl
  | succ n ih =>
    simp only [State.readBlock, memRead_atPc]
    cases s.memRead a .word with
    | error f => rfl
    | ok x =>
      simp only [Except.map, bind, Except.bind, ih]
      cases x.2.readBlock (a + 4) n <;> rfl

theorem writeBlock_atPc (p a : Word) (vs : List Word) (s : State) :
    (atPc p s).writeBlock a vs = (s.writeBlock a vs).map (atPc p) := by
  induction vs generalizing a s with
  | nil => rfl
  | cons v vs ih =>
    simp only [State.writeBlock, memWrite_atPc]
    cases s.memWrite a .word v with
    | error f => rfl
    | ok t => exact ih _ _

theorem readBlock_advance (a : Word) (n : Nat) (s : State) :
    s.advance.readBlock a n = (s.readBlock a n).map fun x => (x.1, x.2.advance) := by
  rw [advance_eq_atPc, readBlock_atPc]
  cases h : s.readBlock a n with
  | error f => rfl
  | ok x => simp only [Except.map, advance_of_bus (readBlock_frame (vs := x.1) (t := x.2) h).1.bus]

theorem writeBlock_advance (a : Word) (vs : List Word) (s : State) :
    s.advance.writeBlock a vs = (s.writeBlock a vs).map State.advance := by
  rw [advance_eq_atPc, writeBlock_atPc]
  cases h : s.writeBlock a vs with
  | error f => rfl
  | ok t => simp only [Except.map, advance_of_bus (writeBlock_frame h)]

/-! ### The policy and the words of a block transfer -/

theorem misaligned_iff (w : Width) (a : Word) : misaligned w a = true ↔ a.toNat % widthBytes w ≠ 0 := by
  cases w
  · simp [misaligned, widthBytes, Nat.mod_one]
  · have h : a.getLsbD 0 = a.toNat.testBit 0 := rfl
    simp only [misaligned, widthBytes, h, Nat.testBit_zero, decide_eq_true_eq]; omega
  · simp only [misaligned, widthBytes, bne_iff_ne, ne_eq, get_two_eq_zero]

theorem alignDown_eq (w : Width) (a : Word) : alignDown w a = down w a := by
  apply BitVec.eq_of_toNat_eq
  have := a.isLt
  cases w <;> simp only [alignDown, down, widthBytes, BitVec.toNat_ofNat]
  · omega
  · have h : a &&& ~~~1#32 = (a >>> 1) <<< 1 := by
      apply BitVec.eq_of_getLsbD_eq; intro i hi; interval_cases i <;> simp
    rw [h, BitVec.toNat_shiftLeft, BitVec.toNat_ushiftRight, Nat.shiftLeft_eq, Nat.shiftRight_eq_div_pow]; omega
  · have h : a &&& ~~~3#32 = (a >>> 2) <<< 2 := by
      apply BitVec.eq_of_getLsbD_eq; intro i hi; interval_cases i <;> simp
    rw [h, BitVec.toNat_shiftLeft, BitVec.toNat_ushiftRight, Nat.shiftLeft_eq, Nat.shiftRight_eq_div_pow]; omega

theorem blockStart_eq (s : State) (a : Word) : s.blockStart a = blockFrom s a := by
  have hd : alignDown .word a = BitVec.ofNat 32 (a.toNat - a.toNat % 4) := alignDown_eq .word a
  have hm := misaligned_iff .word a
  unfold State.blockStart blockFrom
  rw [hd]
  by_cases h : a.toNat % 4 = 0
  · rw [if_neg (fun e => hm.mp e h), if_pos h]
  · exact (if_pos (hm.mpr h)).trans (Eq.trans rfl (if_neg h).symm)

theorem span_succ (a : Word) (k : Nat) : a + span (k + 1) = a + 4 + span k := by
  apply BitVec.eq_of_toNat_eq
  have h4 : (4 : Word).toNat = 4 := rfl
  simp only [span, BitVec.toNat_add, BitVec.toNat_ofNat, h4]
  omega

/-- The words already read stand before those that follow. -/
theorem wordsRead_from (a : Word) (l : List Nat) (xs : List Word) (s : State) :
    l.foldlM (wordRead a) (xs, s) = (l.foldlM (wordRead a) ([], s)).map fun x => (xs ++ x.1, x.2) := by
  induction l generalizing xs s with
  | nil => simp [Except.map, pure, Except.pure]
  | cons k l ih =>
    simp only [List.foldlM_cons, wordRead]
    cases s.memRead (a + span k) .word with
    | error f => rfl
    | ok x =>
      simp only [Except.map, bind, Except.bind]
      rw [ih (xs ++ [x.1]), ih ([] ++ [x.1])]
      cases List.foldlM (wordRead a) ([], x.2) l <;> simp [Except.map]

theorem readBlock_eq (s : State) (a : Word) (n : Nat) : s.readBlock a n = wordsRead s a n := by
  induction n generalizing a s with
  | zero => rfl
  | succ n ih =>
    have h0 : wordRead a ([], s) 0 = (s.memRead a .word).map fun y => ([y.1], y.2) := by simp [wordRead, span]
    have hs : (fun (x : List Word × State) (k : Nat) => wordRead a x (k + 1)) = wordRead (a + 4) := by
      funext x k; simp only [wordRead, span_succ]
    rw [State.readBlock, wordsRead, List.range_succ_eq_map, List.foldlM_cons, h0]
    cases s.memRead a .word with
    | error f => rfl
    | ok x =>
      simp only [Except.map, bind, Except.bind, List.foldlM_map, Nat.succ_eq_add_one, hs]
      rw [wordsRead_from, ih, wordsRead]
      cases List.foldlM (wordRead (a + 4)) ([], x.2) (List.range n) <;> rfl

theorem writeBlock_eq (s : State) (a : Word) (vs : List Word) : s.writeBlock a vs = wordsWritten s a vs := by
  induction vs generalizing a s with
  | nil => rfl
  | cons v vs ih =>
    have h0 : a + span 0 = a := by simp [span]
    rw [State.writeBlock, wordsWritten, List.length_cons, List.range_succ_eq_map, List.foldlM_cons, h0, List.getD_cons_zero]
    cases s.memWrite a .word v with
    | error f => rfl
    | ok t => simp only [bind, Except.bind, List.foldlM_map, Nat.succ_eq_add_one, span_succ, List.getD_cons_succ, ih, wordsWritten]

theorem writeRegs_eq (s : State) (regs : List Reg) (vs : List Word) : s.writeRegs (regs.zip vs) = regsWritten s regs vs := by
  unfold regsWritten
  generalize regs.zip vs = l
  induction l generalizing s with
  | nil => rfl
  | cons x l ih => exact ih _

/-! ### The transfers of a block, from the advanced state -/

/-- A block store: the policy, then the words, then the advance. -/
theorem storeBlock_advance (s : State) (a : Word) (vs : List Word) :
    s.advance.storeBlock a vs = (blockFrom s a).bind fun b => (wordsWritten s b vs).map State.advance := by
  have hb : s.advance.blockStart a = blockFrom s a := blockStart_eq s a
  rw [State.storeBlock, hb]
  cases blockFrom s a with
  | error f => rfl
  | ok b => simp only [bind, Except.bind]; rw [writeBlock_advance, writeBlock_eq]

/-- A block load: the policy, then the words, then the advance. -/
theorem loadBlock_advance (s : State) (a : Word) (n : Nat) :
    s.advance.loadBlock a n = (blockFrom s a).bind fun b => (wordsRead s b n).map fun x => (x.1, x.2.advance) := by
  have hb : s.advance.blockStart a = blockFrom s a := blockStart_eq s a
  rw [State.loadBlock, hb]
  cases blockFrom s a with
  | error f => rfl
  | ok b => simp only [bind, Except.bind]; rw [readBlock_advance, readBlock_eq]

end Sys2Proof.Claims
end

