-- ==== Sys2Proof/Laws/Frames.lean ====
section
/-! SUPPORT. Laws/Frames.lean: what a shared operation can change, as one composable fact, and that fact for every meaning. -/
namespace Sys2Proof.Machine
open Sys2Proof

/-- From `s` to `t` nothing changes but: the registers `ds` in the bank `b`, the CPSR bits `m`, the program counter, and what the
bus can change. -/
structure Frame (b : Bank) (ds : List Reg) (m : Word) (s t : State) : Prop where
  regs : ∀ p : PhysReg, (∀ r ∈ ds, physReg b r ≠ some p) → t.readPhys p = s.readPhys p
  cpsr : t.cpsr &&& ~~~m = s.cpsr &&& ~~~m
  spsr : t.spsr = s.spsr
  halted : t.halted = s.halted
  cfg : t.cfg = s.cfg
  channels : t.channels = s.channels
  events : s.events <+: t.events
  draws : s.draws ≤ t.draws
  memOk : s.MemOk → t.MemOk

/-- No access: memory, the history and the draws are as before. -/
structure Quiet (s t : State) : Prop where
  mem : t.mem = s.mem
  events : t.events = s.events
  draws : t.draws = s.draws

theorem Quiet.refl (s : State) : Quiet s s := ⟨rfl, rfl, rfl⟩
theorem Quiet.trans {s t u : State} (h1 : Quiet s t) (h2 : Quiet t u) : Quiet s u :=
  ⟨h2.mem.trans h1.mem, h2.events.trans h1.events, h2.draws.trans h1.draws⟩

/-! ### Composing frames -/

theorem Frame.refl (b : Bank) (ds : List Reg) (m : Word) (s : State) : Frame b ds m s s :=
  ⟨fun _ _ => rfl, rfl, rfl, rfl, rfl, rfl, List.prefix_refl _, Nat.le_refl _, id⟩

theorem Frame.trans {b : Bank} {ds es : List Reg} {m n : Word} {s t u : State} (h1 : Frame b ds m s t) (h2 : Frame b es n t u) :
    Frame b (ds ++ es) (m ||| n) s u := by
  refine ⟨fun p hp => ?_, ?_, h2.spsr.trans h1.spsr, h2.halted.trans h1.halted, h2.cfg.trans h1.cfg,
    h2.channels.trans h1.channels, h1.events.trans h2.events, Nat.le_trans h1.draws h2.draws, fun h => h2.memOk (h1.memOk h)⟩
  · rw [h2.regs p fun r hr => hp r (by simp [hr]), h1.regs p fun r hr => hp r (by simp [hr])]
  · have e : ~~~(m ||| n) = ~~~m &&& ~~~n := by
      apply BitVec.eq_of_getLsbD_eq; intro i hi; simp [hi]
    have e1 : ∀ c : Word, c &&& (~~~m &&& ~~~n) = (c &&& ~~~m) &&& ~~~n := fun c => (BitVec.and_assoc _ _ _).symm
    have e2 : ∀ c : Word, c &&& (~~~m &&& ~~~n) = (c &&& ~~~n) &&& ~~~m := by
      intro c; rw [BitVec.and_comm (~~~m)]; exact (BitVec.and_assoc _ _ _).symm
    rw [e, e2, h2.cpsr, ← e2, e1, h1.cpsr, ← e1]

/-- More registers and more bits. -/
theorem Frame.mono {b : Bank} {ds es : List Reg} {m n : Word} {s t : State} (h : Frame b ds m s t) (hd : ∀ r ∈ ds, r ∈ es ∨ r = 15)
    (hm : m &&& ~~~n = 0) : Frame b es n s t := by
  refine ⟨fun p hp => h.regs p fun r hr => ?_, ?_, h.spsr, h.halted, h.cfg, h.channels, h.events, h.draws, h.memOk⟩
  · rcases hd r hr with h | rfl
    · exact hp r h
    · rw [(physReg_eq_none b 15).mpr rfl]; simp
  · have e : ∀ c : Word, c &&& ~~~n = (c &&& ~~~m) &&& ~~~n := by
      intro c
      apply BitVec.eq_of_getLsbD_eq; intro i hi
      have := congrArg (·.getLsbD i) hm
      simp only [BitVec.getLsbD_and, BitVec.getLsbD_not, hi, decide_true, Bool.true_and] at this ⊢
      cases h1 : m.getLsbD i <;> cases h2 : n.getLsbD i <;> simp_all
    rw [e, h.cpsr, ← e]

/-- The mode is kept when no mode bit is among the changed ones. -/
theorem Frame.mode? {b : Bank} {ds : List Reg} {m : Word} {s t : State} (h : Frame b ds m s t) (hm : m &&& 0x1F#32 = 0) :
    t.mode? = s.mode? := by
  have e : get t.cpsr 0 5 = get s.cpsr 0 5 := by
    apply BitVec.eq_of_getLsbD_eq; intro i hi
    have h1 := congrArg (·.getLsbD i) h.cpsr
    have h2 := congrArg (·.getLsbD i) hm
    have h3 : (0x1F#32 : Word).getLsbD i = true := by interval_cases i <;> rfl
    simp only [BitVec.getLsbD_and, BitVec.getLsbD_not, h3, Bool.and_true, show i < 32 by omega, decide_true, Bool.true_and]
      at h1 h2
    rw [get_getLsbD, get_getLsbD]
    simpa [hi, h2] using h1
  simp only [State.mode?, State.modeField, e]

theorem Frame.bank {b : Bank} {ds : List Reg} {m : Word} {s t : State} (h : Frame b ds m s t) (hm : m &&& 0x1F#32 = 0) :
    t.bank = s.bank := State.bank_of_mode? (h.mode? hm)

/-! ### The shared operations -/

/-- Any change of the program counter alone. -/
theorem Frame.ofPc (b : Bank) (s : State) (v : Word) : Frame b [] 0 s { s with pc := v } :=
  ⟨fun _ _ => rfl, rfl, rfl, rfl, rfl, rfl, List.prefix_refl _, Nat.le_refl _, id⟩

theorem Frame.advance (b : Bank) (s : State) : Frame b [] 0 s s.advance := Frame.ofPc b s _

/-- A write to the CPSR. -/
theorem Frame.ofCpsr (b : Bank) (s : State) (v m : Word) (h : v &&& ~~~m = s.cpsr &&& ~~~m) : Frame b [] m s { s with cpsr := v } :=
  ⟨fun _ _ => rfl, h, rfl, rfl, rfl, rfl, List.prefix_refl _, Nat.le_refl _, id⟩

theorem Frame.writeReg {b : Bank} {s : State} (hb : s.bank = b) (r : Reg) (v : Word) : Frame b [r] 0 s (s.writeReg r v) := by
  refine ⟨fun p hp => ?_, by simp, by simp, by simp, by simp, by simp, by simp, by simp, fun h => by simpa [State.MemOk] using h⟩
  have hp := hp r (by simp)
  unfold State.writeReg
  rw [hb]
  split
  · rename_i q hq
    rw [State.readPhys_writePhys, if_neg]
    rintro rfl
    exact hp hq
  · rfl

theorem Frame.writeRegs {b : Bank} {s : State} (hb : s.bank = b) (l : List (Reg × Word)) :
    Frame b (l.map Prod.fst) 0 s (s.writeRegs l) := by
  induction l generalizing s with
  | nil => exact Frame.refl _ _ _ _
  | cons x l ih =>
    have h1 := Frame.writeReg hb x.1 x.2
    have h2 := ih (s := s.writeReg x.1 x.2) (by simpa using hb)
    exact (h1.trans h2).mono (fun r hr => .inl (by simpa using hr)) (by simp)

theorem Frame.writeBack {b : Bank} {s : State} (hb : s.bank = b) (rn : Reg) (o : Option Word) :
    Frame b (if o.isSome then [rn] else []) 0 s (s.writeBack rn o) := by
  cases o with
  | none => exact Frame.refl _ _ _ _
  | some v => exact Frame.writeReg hb rn v

theorem BusFrame.frame {s t : State} (h : BusFrame s t) (b : Bank) : Frame b [] 0 s t := by
  refine ⟨fun p _ => ?_, ?_, h.spsr, h.halted, h.cfg, h.channels, h.events, h.draws, h.memOk⟩
  · unfold State.readPhys; rw [h.regs]
  · rw [h.cpsr]

theorem BusFrame.bank {s t : State} (h : BusFrame s t) : t.bank = s.bank := State.bank_of_cpsr h.cpsr

/-- One status bit. -/
theorem setBit_and_not (v : Word) (k : Nat) (b : Bool) (hk : k < 32) (m : Word) (hm : m.getLsbD k = true) :
    setBit v k b &&& ~~~m = v &&& ~~~m := by
  apply BitVec.eq_of_getLsbD_eq; intro i hi
  simp only [BitVec.getLsbD_and, BitVec.getLsbD_not, hi, decide_true, Bool.true_and, setBit_getLsbD _ _ _ _ hk]
  by_cases h : i = k
  · subst h; simp [hm]
  · simp [h]

/-- One status bit, of those in `m`. -/
theorem Frame.setBit (b : Bank) (s : State) (k : Nat) (x : Bool) (m : Word) (hk : k < 32) (hm : m.getLsbD k = true) :
    Frame b [] m s { s with cpsr := Machine.setBit s.cpsr k x } :=
  Frame.ofCpsr _ _ _ _ (setBit_and_not _ _ _ hk _ hm)

theorem Frame.setNZ (b : Bank) (s : State) (v : Word) (m : Word) (h1 : m.getLsbD 31 = true) (h2 : m.getLsbD 30 = true) :
    Frame b [] m s (s.setNZ v) :=
  ((Frame.setBit b s 31 _ m (by omega) h1).trans (Frame.setBit b (s.setN _) 30 _ m (by omega) h2)).mono (by simp) (by simp)

/-- The flags of an operation: V only where it defines V (40_core_condition_shifter.md R163). -/
theorem Frame.setFlags (b : Bank) (s : State) (r : AluResult) (m : Word)
    (hm : m = 0xF0000000#32 ∨ (m = 0xE0000000#32 ∧ r.overflow = none)) : Frame b [] m s (s.setFlags r) := by
  have h1 : m.getLsbD 31 = true ∧ m.getLsbD 30 = true ∧ m.getLsbD 29 = true := by
    rcases hm with rfl | ⟨rfl, _⟩ <;> exact ⟨rfl, rfl, rfl⟩
  have h2 : Frame b [] m s ((s.setNZ r.value).setC r.carry) :=
    ((Frame.setNZ b s r.value m h1.1 h1.2.1).trans (Frame.setBit b (s.setNZ r.value) 29 _ m (by omega) h1.2.2)).mono (by simp) (by simp)
  unfold State.setFlags State.setOverflow
  split
  · rename_i v hv
    rcases hm with rfl | ⟨_, hn⟩
    · exact (h2.trans (Frame.setBit b _ 28 v 0xF0000000#32 (by omega) rfl)).mono (by simp) (by simp)
    · rw [hn] at hv; cases hv
  · exact h2

theorem Frame.setMulFlags (b : Bank) (s : State) (z : Bool) (m : Word) (h1 : m.getLsbD 30 = true) (h2 : m.getLsbD 29 = true) :
    Frame b [] m s (s.setMulFlags z) :=
  ((Frame.setBit b s 30 _ m (by omega) h1).trans (Frame.setBit b (s.setZ _) 29 _ m (by omega) h2)).mono (by simp) (by simp)

/-- A frame of a branch to a restored state. -/
theorem Frame.restore {b : Bank} {s t : State} (h : s.restoreCpsr = .ok t) : Frame b [] 0xFFFFFFFF#32 s t := by
  obtain ⟨k, _, rfl, _⟩ := restoreCpsr_ok h
  exact Frame.ofCpsr _ _ _ _ (by simp)

theorem Frame.afterRestore {b : Bank} {s t : State} {v : Word} (h : s.writePcAfterRestore v = .ok t) : Frame b [] 0 s t := by
  rcases writePcAfterRestore_ok h with ⟨_, rfl⟩ | ⟨_, _, rfl⟩ <;> exact Frame.ofPc _ _ _

theorem Frame.interwork {b : Bank} {s t : State} {v : Word} (h : s.writePcInterwork v = .ok t) : Frame b [] 0x20#32 s t := by
  rcases writePcInterwork_ok h with ⟨_, rfl⟩ | ⟨_, rfl⟩ <;>
    exact ((Frame.setBit b s 5 _ 0x20#32 (by omega) rfl).trans (Frame.ofPc _ _ _)).mono (by simp) (by simp)

/-! ### Quiet operations -/

theorem Quiet.advance (s : State) : Quiet s s.advance := ⟨rfl, rfl, rfl⟩
theorem Quiet.writeReg (s : State) (r : Reg) (v : Word) : Quiet s (s.writeReg r v) := ⟨by simp, by simp, by simp⟩
theorem Quiet.writeRegs (s : State) (l : List (Reg × Word)) : Quiet s (s.writeRegs l) := ⟨by simp, by simp, by simp⟩
theorem Quiet.writeBack (s : State) (rn : Reg) (o : Option Word) : Quiet s (s.writeBack rn o) := by
  cases o
  · exact Quiet.refl s
  · exact Quiet.writeReg s _ _
theorem Quiet.setFlags (s : State) (r : AluResult) : Quiet s (s.setFlags r) := by
  unfold State.setFlags State.setOverflow; split <;> exact ⟨rfl, rfl, rfl⟩

theorem Quiet.restore {s t : State} (h : s.restoreCpsr = .ok t) : Quiet s t := by
  obtain ⟨k, _, rfl, _⟩ := restoreCpsr_ok h
  exact ⟨rfl, rfl, rfl⟩
theorem Quiet.afterRestore {s t : State} {v : Word} (h : s.writePcAfterRestore v = .ok t) : Quiet s t := by
  rcases writePcAfterRestore_ok h with ⟨_, rfl⟩ | ⟨_, _, rfl⟩ <;> exact ⟨rfl, rfl, rfl⟩
theorem Quiet.interwork {s t : State} {v : Word} (h : s.writePcInterwork v = .ok t) : Quiet s t := by
  rcases writePcInterwork_ok h with ⟨_, rfl⟩ | ⟨_, rfl⟩ <;> exact ⟨rfl, rfl, rfl⟩

/-! ### Data processing (42_arm_data_processing.md) -/

theorem dataProc_frame {s t : State} {o : Result (Word × Bool)} {alu : Word × Bool → AluResult} {setf : Bool} {rd : Reg} {m : Word}
    (hm : m = 0xF0000000#32 ∨ (m = 0xE0000000#32 ∧ ∀ v, (alu v).overflow = none)) (h : s.dataProc o alu setf rd = .ok t) :
    Frame s.bank [rd] (dpMask setf rd m) s t ∧ Quiet s t := by
  obtain ⟨v, _, hw⟩ := bind_ok.mp h
  clear h
  have h := hw
  clear hw
  have ha : Frame s.bank [] 0 s s.advance := Frame.advance _ _
  unfold State.writeDp at h
  split at h
  · rename_i hd
    subst hd
    cases setf
    · obtain ⟨rfl, _⟩ := writePcArm_ok h
      exact ⟨(Frame.ofPc _ _ _).mono (by simp) (by simp), ⟨rfl, rfl, rfl⟩⟩
    · obtain ⟨u, h1, h2⟩ := bind_ok.mp h
      exact ⟨((ha.trans (Frame.restore h1)).trans (Frame.afterRestore h2)).mono (by simp) (by simp [dpMask]),
        ((Quiet.advance s).trans (Quiet.restore h1)).trans (Quiet.afterRestore h2)⟩
  · rename_i hd
    have hw := Frame.writeReg (b := s.bank) (s := s.advance) rfl rd (alu v).value
    have hq : Quiet s (s.advance.writeReg rd (alu v).value) := (Quiet.advance s).trans (Quiet.writeReg _ _ _)
    cases h
    cases setf
    · exact ⟨(ha.trans hw).mono (by simp) (by simp), hq⟩
    · refine ⟨((ha.trans hw).trans (Frame.setFlags _ _ (alu v) m ?_)).mono (by simp) (by simp [dpMask, hd]), hq.trans (Quiet.setFlags _ _)⟩
      rcases hm with rfl | ⟨rfl, hn⟩
      · exact .inl rfl
      · exact .inr ⟨rfl, hn v⟩

theorem compare_frame {s t : State} {o : Result (Word × Bool)} {alu : Word × Bool → AluResult} {m : Word}
    (hm : m = 0xF0000000#32 ∨ (m = 0xE0000000#32 ∧ ∀ v, (alu v).overflow = none)) (h : s.compare o alu = .ok t) :
    Frame s.bank [] m s t ∧ Quiet s t := by
  obtain ⟨v, _, h⟩ := bind_ok.mp h
  cases h
  refine ⟨((Frame.advance _ _).trans (Frame.setFlags _ _ (alu v) m ?_)).mono (by simp) (by simp), (Quiet.advance s).trans (Quiet.setFlags _ _)⟩
  rcases hm with rfl | ⟨rfl, hn⟩
  · exact .inl rfl
  · exact .inr ⟨rfl, hn v⟩

/-! ### Branches (41_arm_branch.md) -/

theorem branchLinkExchange_frame {s t : State} {rm : Reg} (h : s.branchLinkExchange rm = .ok t) :
    rm ≠ 15 ∧ Frame s.bank [14] 0x20#32 s t ∧ Quiet s t := by
  obtain ⟨_, h1, h2⟩ := bind_ok.mp h
  refine ⟨by simpa using faultIf_ok.mp h1, ?_, ((Quiet.advance s).trans (Quiet.writeReg _ _ _)).trans (Quiet.interwork h2)⟩
  exact (((Frame.advance _ _).trans (Frame.writeReg (s := s.advance) rfl 14 _)).trans (Frame.interwork h2)).mono (by simp) (by simp)

/-! ### Multiplies (43_arm_multiply.md) -/

theorem Frame.writePair {b : Bank} {s : State} (hb : s.bank = b) (rdHi rdLo : Reg) (r : BitVec 64) :
    Frame b [rdHi, rdLo] 0 s (s.writePair rdHi rdLo r) :=
  ((Frame.writeReg hb rdHi _).trans (Frame.writeReg (s := s.writeReg rdHi (high r)) (by simpa using hb) rdLo _)).mono
    (fun r hr => .inl (by simpa using hr)) (by simp)

theorem Quiet.writePair (s : State) (rdHi rdLo : Reg) (r : BitVec 64) : Quiet s (s.writePair rdHi rdLo r) :=
  (Quiet.writeReg _ _ _).trans (Quiet.writeReg _ _ _)

theorem multiply_frame {s t : State} {bad setf : Bool} {rd : Reg} {v : Word} (h : s.multiply bad setf rd v = .ok t) :
    bad = false ∧ Frame s.bank [rd] (flagMask setf 0x60000000#32) s t ∧ Quiet s t := by
  obtain ⟨_, h1, h2⟩ := bind_ok.mp h
  cases h2
  have hf := (Frame.advance s.bank s).trans (Frame.writeReg (s := s.advance) rfl rd v)
  have hq := (Quiet.advance s).trans (Quiet.writeReg s.advance rd v)
  refine ⟨faultIf_ok.mp h1, ?_, ?_⟩
  · cases setf
    · exact hf.mono (by simp) (by simp)
    · exact (hf.trans (Frame.setMulFlags _ _ _ 0x60000000#32 rfl rfl)).mono (by simp) (by simp [flagMask])
  · cases setf
    · exact hq
    · exact hq.trans ⟨rfl, rfl, rfl⟩

theorem multiplyLong_frame {s t : State} {setf : Bool} {rdHi rdLo rs rm : Reg} {r : BitVec 64}
    (h : s.multiplyLong setf rdHi rdLo rs rm r = .ok t) :
    longRegCheck rdHi rdLo rs rm = false ∧ Frame s.bank [rdHi, rdLo] (flagMask setf 0x60000000#32) s t ∧ Quiet s t := by
  obtain ⟨_, h1, h2⟩ := bind_ok.mp h
  cases h2
  have hf := (Frame.advance s.bank s).trans (Frame.writePair (s := s.advance) rfl rdHi rdLo r)
  have hq := (Quiet.advance s).trans (Quiet.writePair s.advance rdHi rdLo r)
  refine ⟨faultIf_ok.mp h1, ?_, ?_⟩
  · cases setf
    · exact hf.mono (fun r hr => .inl (by simpa using hr)) (by simp)
    · exact (hf.trans (Frame.setMulFlags _ _ _ 0x60000000#32 rfl rfl)).mono (fun r hr => .inl (by simpa using hr)) (by simp [flagMask])
  · cases setf
    · exact hq
    · exact hq.trans ⟨rfl, rfl, rfl⟩

theorem multiplyLongSigned_frame {s t : State} {setf : Bool} {rdHi rdLo rs rm : Reg} {r : BitVec 64}
    (h : s.multiplyLongSigned setf rdHi rdLo rs rm r = .ok t) :
    longRegCheck rdHi rdLo rs rm = false ∧ Frame s.bank [rdHi, rdLo] (flagMask setf 0xE0000000#32) s t ∧ Quiet s t := by
  obtain ⟨_, h1, h2⟩ := bind_ok.mp h
  cases h2
  have hf := (Frame.advance s.bank s).trans (Frame.writePair (s := s.advance) rfl rdHi rdLo r)
  have hq := (Quiet.advance s).trans (Quiet.writePair s.advance rdHi rdLo r)
  refine ⟨faultIf_ok.mp h1, ?_, ?_⟩
  · cases setf
    · exact hf.mono (fun r hr => .inl (by simpa using hr)) (by simp)
    · exact ((hf.trans (Frame.setBit _ _ 31 _ 0xE0000000#32 (by omega) rfl)).trans
        (Frame.setMulFlags _ (State.setN _ _) _ 0xE0000000#32 rfl rfl)).mono (fun r hr => .inl (by simpa using hr)) (by simp [flagMask])
  · cases setf
    · exact hq
    · exact hq.trans ⟨rfl, rfl, rfl⟩

theorem multiplyLongPlain_frame {s t : State} {rdHi rdLo rs rm : Reg} {r : BitVec 64}
    (h : s.multiplyLongPlain rdHi rdLo rs rm r = .ok t) :
    longBad rdHi rdLo rs rm = false ∧ Frame s.bank [rdHi, rdLo] 0 s t ∧ Quiet s t := by
  obtain ⟨_, h1, h2⟩ := bind_ok.mp h
  cases h2
  exact ⟨faultIf_ok.mp h1,
    ((Frame.advance s.bank s).trans (Frame.writePair (s := s.advance) rfl rdHi rdLo r)).mono (fun r hr => .inl (by simpa using hr)) (by simp),
    (Quiet.advance s).trans (Quiet.writePair s.advance rdHi rdLo r)⟩

theorem multiplyWide_frame {s t : State} {y : Bool} {rd rn rs rm : Reg} (h : s.multiplyWide y rd rn rs rm = .ok t) :
    (rd == 15 || rn == 15 || rs == 15 || rm == 15) = false ∧ Frame s.bank [rd] 0x08000000#32 s t ∧ Quiet s t := by
  obtain ⟨_, h1, h2⟩ := bind_ok.mp h
  refine ⟨faultIf_ok.mp h1, ?_⟩
  simp only [pure_ok] at h2
  subst h2
  have hf := fun v => (Frame.advance s.bank s).trans (Frame.writeReg (s := s.advance) rfl rd v)
  have hq := fun v => (Quiet.advance s).trans (Quiet.writeReg s.advance rd v)
  split
  · exact ⟨((hf _).trans (Frame.setBit _ _ 27 _ 0x08000000#32 (by omega) rfl)).mono (by simp) (by simp), (hq _).trans ⟨rfl, rfl, rfl⟩⟩
  · exact ⟨(hf _).mono (by simp) (by simp), hq _⟩

theorem multiplyHalf_frame {s t : State} {y x : Bool} {rd rs rm : Reg} (h : s.multiplyHalf y x rd rs rm = .ok t) :
    (rd == 15 || rs == 15 || rm == 15) = false ∧ Frame s.bank [rd] 0 s t ∧ Quiet s t := by
  obtain ⟨_, h1, h2⟩ := bind_ok.mp h
  cases h2
  exact ⟨faultIf_ok.mp h1, ((Frame.advance s.bank s).trans (Frame.writeReg (s := s.advance) rfl rd _)).mono (by simp) (by simp),
    (Quiet.advance s).trans (Quiet.writeReg s.advance rd _)⟩

/-! ### Status registers (44_arm_psr_transfer.md) -/

theorem readStatus_frame {s t : State} {rd : Reg} {read : Result Word} (h : s.readStatus rd read = .ok t) :
    rd ≠ 15 ∧ (∃ v, read = .ok v) ∧ Frame s.bank [rd] 0 s t ∧ Quiet s t := by
  obtain ⟨_, h1, h⟩ := bind_ok.mp h
  obtain ⟨v, h2, h⟩ := bind_ok.mp h
  cases h
  exact ⟨by simpa using faultIf_ok.mp h1, ⟨v, h2⟩,
    ((Frame.advance s.bank s).trans (Frame.writeReg (s := s.advance) rfl rd v)).mono (by simp) (by simp),
    (Quiet.advance s).trans (Quiet.writeReg s.advance rd v)⟩

theorem merge_and_not (old new m n : Word) (h : m &&& ~~~n = 0) : merge old new m &&& ~~~n = old &&& ~~~n := by
  unfold merge
  apply BitVec.eq_of_getLsbD_eq; intro i hi
  have := congrArg (·.getLsbD i) h
  simp only [BitVec.getLsbD_and, BitVec.getLsbD_or, BitVec.getLsbD_not, hi, decide_true, Bool.true_and] at this ⊢
  cases h1 : m.getLsbD i <;> cases h2 : n.getLsbD i <;> simp_all

/-- MSR to the CPSR writes the bits of its mask, in User mode those of the f byte alone, and leaves a legal mode. -/
theorem msrCpsr_frame {s t : State} {mask : BitVec 4} {operand : Result Word} (h : s.msrCpsr mask operand = .ok t) :
    (∃ v, operand = .ok v) ∧ Frame s.bank [] (maskBytes mask) s t ∧ Quiet s t ∧ t.ModeOk ∧
      (s.isUser = true → Frame s.bank [] 0xFF000000#32 s t) ∧ t.pc = s.advance.pc := by
  obtain ⟨v, h1, h2⟩ := bind_ok.mp h
  obtain ⟨rfl, hm⟩ := writeCpsr_ok h2
  have hf : ∀ n, s.cpsrMask mask &&& ~~~n = 0 →
      Frame s.bank [] n s { s.advance with cpsr := merge s.cpsr v (s.cpsrMask mask) } := fun n hn =>
    ((Frame.advance s.bank s).trans (Frame.ofCpsr _ s.advance _ n (merge_and_not _ _ _ _ hn))).mono (by simp) (by simp)
  refine ⟨⟨v, h1⟩, hf _ ?_, ⟨rfl, rfl, rfl⟩, hm, fun hu => hf _ ?_, rfl⟩
  · unfold State.cpsrMask
    split
    · rw [BitVec.and_comm (maskBytes mask), BitVec.and_assoc]; simp
    · simp
  · unfold State.cpsrMask
    rw [if_pos hu, BitVec.and_assoc]; simp

theorem msrSpsr_ok {s t : State} {mask : BitVec 4} {operand : Result Word} (h : s.msrSpsr mask operand = .ok t) :
    ∃ v k, operand = .ok v ∧ s.spsr? = some k ∧
      t = { s.advance with spsr := s.spsr.set k (merge s.spsr[k] v (maskBytes mask)) k.isLt } := by
  obtain ⟨v, h1, h⟩ := bind_ok.mp h
  obtain ⟨old, h2, h⟩ := bind_ok.mp h
  obtain ⟨k, hk, rfl⟩ := readSpsr_ok h2
  obtain ⟨k', hk', rfl⟩ := writeSpsr_ok h
  have : k' = k := by
    have e : s.spsr? = some k' := hk'
    rw [hk] at e
    exact (Option.some.inj e).symm
  subst this
  exact ⟨v, k', h1, hk, rfl⟩

/-! ### Single transfers and swap (45_arm_load_store.md) -/

theorem sdtAddress_ok {s : State} {off : Result Word} {p u w : Bool} {rn rd : Reg} {a : Word} {wb : Option Word}
    (h : s.sdtAddress off p u w rn rd = .ok (a, wb)) :
    ∃ o, off = .ok o ∧ ((!p || w) = true → rn ≠ 15 ∧ rn ≠ rd) ∧
      a = (if p then offsetAddress u (s.readReg rn) o else s.readReg rn) ∧
      wb = (if !p || w then some (offsetAddress u (s.readReg rn) o) else none) := by
  obtain ⟨o, h1, h⟩ := bind_ok.mp h
  obtain ⟨_, h2, h⟩ := bind_ok.mp h
  obtain ⟨_, h3, h⟩ := bind_ok.mp h
  have h2 := faultIf_ok.mp h2
  have h3 := faultIf_ok.mp h3
  cases h
  exact ⟨o, h1, fun hw => by simp_all, rfl, rfl⟩

theorem hdtAddress_ok {s : State} {off : Result Word} {p u w : Bool} {rn rd : Reg} {a : Word} {wb : Option Word}
    (h : s.hdtAddress off p u w rn rd = .ok (a, wb)) :
    ∃ o, off = .ok o ∧ (!p && w) = false ∧ ((!p || w) = true → rn ≠ 15 ∧ rn ≠ rd) ∧
      a = (if p then offsetAddress u (s.readReg rn) o else s.readReg rn) ∧
      wb = (if !p || w then some (offsetAddress u (s.readReg rn) o) else none) := by
  obtain ⟨o, h1, h⟩ := bind_ok.mp h
  obtain ⟨_, h0, h⟩ := bind_ok.mp h
  obtain ⟨_, h2, h⟩ := bind_ok.mp h
  obtain ⟨_, h3, h⟩ := bind_ok.mp h
  have h0 := faultIf_ok.mp h0
  have h2 := faultIf_ok.mp h2
  have h3 := faultIf_ok.mp h3
  cases h
  exact ⟨o, h1, h0, fun hw => by simp_all, rfl, rfl⟩

/-- The base among the changed registers, where it is written back. -/
def backRegs (rn : Reg) (wb : Option Word) : List Reg := if wb.isSome then [rn] else []

theorem loadWord_frame {s t : State} {address : Result (Word × Option Word)} {rn rd : Reg} (h : s.loadWord address rn rd = .ok t) :
    ∃ a wb, address = .ok (a, wb) ∧ Frame s.bank (backRegs rn wb ++ [rd]) 0 s t ∧ t.mem = s.mem := by
  obtain ⟨⟨a, wb⟩, h1, h⟩ := bind_ok.mp h
  obtain ⟨⟨v, u⟩, h2, h⟩ := bind_ok.mp h
  have hr := dataRead_frame h2
  have hu : u.bank = s.bank := hr.bus.bank
  have hf := ((Frame.advance s.bank s).trans (hr.bus.frame _)).trans (Frame.writeBack hu rn wb)
  have hm : (u.writeBack rn wb).mem = s.mem := by rw [(Quiet.writeBack u rn wb).mem, hr.mem]; rfl
  refine ⟨a, wb, h1, ?_⟩
  simp only at h
  split at h
  · obtain ⟨rfl, _⟩ := writePcArm_ok h
    exact ⟨(hf.trans (Frame.ofPc _ _ _)).mono (fun r hr => .inl (by simp_all [backRegs])) (by simp), hm⟩
  · cases h
    refine ⟨(hf.trans (Frame.writeReg ?_ rd v)).mono (fun r hr => .inl (by simp_all [backRegs])) (by simp), by simpa using hm⟩
    cases wb <;> simp [State.writeBack, hu]

theorem storeWord_ok {s t : State} {address : Result (Word × Option Word)} {rn rd : Reg} (h : s.storeWord address rn rd = .ok t) :
    ∃ a wb u, address = .ok (a, wb) ∧ s.advance.dataWrite .word a (if rd = 15 then s.pcStored else s.readReg rd) = .ok u ∧
      t = u.writeBack rn wb := by
  obtain ⟨⟨a, wb⟩, h1, h⟩ := bind_ok.mp h
  obtain ⟨u, h2, h⟩ := bind_ok.mp h
  cases h
  exact ⟨a, wb, u, h1, h2, rfl⟩

theorem loadNarrow_frame {s t : State} {tag : Tag} {k : LoadKind} {address : Result (Word × Option Word)} {rn rd : Reg}
    (h : s.loadNarrow tag k address rn rd = .ok t) :
    rd ≠ 15 ∧ ∃ a wb, address = .ok (a, wb) ∧ Frame s.bank (backRegs rn wb ++ [rd]) 0 s t ∧ t.mem = s.mem := by
  obtain ⟨_, h0, h⟩ := bind_ok.mp h
  obtain ⟨⟨a, wb⟩, h1, h⟩ := bind_ok.mp h
  obtain ⟨⟨v, u⟩, h2, h⟩ := bind_ok.mp h
  have hr := dataRead_frame h2
  have hu : u.bank = s.bank := hr.bus.bank
  have hf := ((Frame.advance s.bank s).trans (hr.bus.frame _)).trans (Frame.writeBack hu rn wb)
  have hm : (u.writeBack rn wb).mem = s.mem := by rw [(Quiet.writeBack u rn wb).mem, hr.mem]; rfl
  cases h
  refine ⟨by simpa using faultIf_ok.mp h0, a, wb, h1, (hf.trans (Frame.writeReg ?_ rd v)).mono (fun r hr => .inl (by simp_all [backRegs])) (by simp),
    by simpa using hm⟩
  cases wb <;> simp [State.writeBack, hu]

theorem storeNarrow_ok {s t : State} {tag : Tag} {w : Width} {address : Result (Word × Option Word)} {rn rd : Reg}
    (h : s.storeNarrow tag w address rn rd = .ok t) :
    rd ≠ 15 ∧ ∃ a wb u, address = .ok (a, wb) ∧ s.advance.dataWrite w a (truncate w (s.readReg rd)) = .ok u ∧
      t = u.writeBack rn wb := by
  obtain ⟨_, h0, h⟩ := bind_ok.mp h
  obtain ⟨⟨a, wb⟩, h1, h⟩ := bind_ok.mp h
  obtain ⟨u, h2, h⟩ := bind_ok.mp h
  cases h
  exact ⟨by simpa using faultIf_ok.mp h0, a, wb, u, h1, h2, rfl⟩

/-- A store and its writeback. -/
theorem Frame.store {s u : State} {w : Width} {a v : Word} (h : s.advance.dataWrite w a v = .ok u) (rn : Reg) (wb : Option Word) :
    Frame s.bank (backRegs rn wb) 0 s (u.writeBack rn wb) := by
  have hb := dataWrite_frame h
  exact (((Frame.advance s.bank s).trans (hb.frame _)).trans (Frame.writeBack hb.bank rn wb)).mono
    (fun r hr => .inl (by simpa [backRegs] using hr)) (by simp)

theorem swap_ok {s t : State} {k : LoadKind} {rn rd rm : Reg} (h : s.swap k rn rd rm = .ok t) :
    (rd == 15 || rm == 15 || rn == 15 || rn == rd || rn == rm) = false ∧
    ∃ old u v, s.advance.dataRead k (s.readReg rn) = .ok (old, u) ∧
      u.dataWrite (loadWidth k) (s.readReg rn) (truncate (loadWidth k) (s.readReg rm)) = .ok v ∧ t = v.writeReg rd old := by
  obtain ⟨_, h0, h⟩ := bind_ok.mp h
  obtain ⟨⟨old, u⟩, h1, h⟩ := bind_ok.mp h
  obtain ⟨v, h2, h⟩ := bind_ok.mp h
  cases h
  exact ⟨faultIf_ok.mp h0, old, u, v, h1, h2, rfl⟩

theorem swap_frame {s t : State} {k : LoadKind} {rn rd rm : Reg} (h : s.swap k rn rd rm = .ok t) : Frame s.bank [rd] 0 s t := by
  obtain ⟨_, old, u, v, h1, h2, rfl⟩ := swap_ok h
  have hr := (dataRead_frame h1).bus
  have hw := dataWrite_frame h2
  have hb : v.bank = s.bank := hw.bank.trans hr.bank
  exact ((((Frame.advance s.bank s).trans (hr.frame _)).trans (hw.frame _)).trans (Frame.writeReg hb rd old)).mono (by simp) (by simp)

/-! ### Block transfers (46_arm_block_transfer.md) -/

theorem blockStart_ok {s : State} {a b : Word} (h : s.blockStart a = .ok b) :
    b = a ∨ (s.cfg.misalign = .arm7 ∧ b = alignDown .word a) := by
  unfold State.blockStart at h
  split at h
  · split at h
    · cases h
    · rename_i hp
      split at h
      · cases h
      · cases h; exact .inr ⟨hp, rfl⟩
    · cases h; exact .inl rfl
  · cases h; exact .inl rfl

theorem loadBlock_frame {s t : State} {a : Word} {n : Nat} {vs : List Word} (h : s.loadBlock a n = .ok (vs, t)) :
    ReadFrame s t ∧ vs.length = n := by
  obtain ⟨b, _, h⟩ := bind_ok.mp h
  exact readBlock_frame h

theorem storeBlock_ok {s t : State} {a : Word} {vs : List Word} (h : s.storeBlock a vs = .ok t) :
    ∃ b, s.blockStart a = .ok b ∧ s.writeBlock b vs = .ok t := by
  obtain ⟨b, h1, h⟩ := bind_ok.mp h
  exact ⟨b, h1, h⟩

theorem storeBlock_frame {s t : State} {a : Word} {vs : List Word} (h : s.storeBlock a vs = .ok t) : BusFrame s t := by
  obtain ⟨b, _, h⟩ := storeBlock_ok h
  exact writeBlock_frame h

theorem blockAddress_ok {s : State} {k : BlockMode} {rn : Reg} {list : BitVec 16} {a b : Word}
    (h : s.blockAddress k rn list = .ok (a, b)) : regsOf list ≠ [] ∧ rn ≠ 15 := by
  obtain ⟨_, h1, h⟩ := bind_ok.mp h
  obtain ⟨_, h2, h⟩ := bind_ok.mp h
  exact ⟨by simpa using faultIf_ok.mp h1, by simpa using faultIf_ok.mp h2⟩

theorem storeMultiple_ok {s t : State} {k : BlockMode} {w : Bool} {rn : Reg} {list : BitVec 16}
    (h : s.storeMultiple k w rn list = .ok t) :
    ∃ a b u, s.blockAddress k rn list = .ok (a, b) ∧
      (w && (regsOf list).contains rn && (regsOf list).head? != some rn) = false ∧
      s.advance.storeBlock a ((regsOf list).map (s.storedReg s.readReg)) = .ok u ∧ t = (if w then u.writeReg rn b else u) := by
  obtain ⟨⟨a, b⟩, h1, h⟩ := bind_ok.mp h
  obtain ⟨_, h2, h⟩ := bind_ok.mp h
  obtain ⟨u, h3, h⟩ := bind_ok.mp h
  cases h
  exact ⟨a, b, u, h1, faultIf_ok.mp h2, h3, rfl⟩

theorem storeMultiple_frame {s t : State} {k : BlockMode} {w : Bool} {rn : Reg} {list : BitVec 16}
    (h : s.storeMultiple k w rn list = .ok t) : Frame s.bank (baseIf w rn) 0 s t := by
  obtain ⟨a, b, u, _, _, h3, rfl⟩ := storeMultiple_ok h
  have hb := storeBlock_frame h3
  have hf := (Frame.advance s.bank s).trans (hb.frame _)
  cases w
  · exact hf.mono (by simp) (by simp)
  · exact (hf.trans (Frame.writeReg hb.bank rn b)).mono (by simp [baseIf]) (by simp)

theorem storeMultipleUser_ok {s t : State} {k : BlockMode} {w : Bool} {rn : Reg} {list : BitVec 16}
    (h : s.storeMultipleUser k w rn list = .ok t) :
    s.spsr?.isSome = true ∧ w = false ∧ ∃ a b, s.blockAddress k rn list = .ok (a, b) ∧
      s.advance.storeBlock a ((regsOf list).map (s.storedReg s.readUser)) = .ok t := by
  obtain ⟨_, h1, h⟩ := bind_ok.mp h
  obtain ⟨_, h2, h⟩ := bind_ok.mp h
  obtain ⟨⟨a, b⟩, h3, h⟩ := bind_ok.mp h
  refine ⟨?_, faultIf_ok.mp h2, a, b, h3, h⟩
  have := faultIf_ok.mp h1
  cases hs : s.spsr? <;> simp_all

theorem zip_fst {regs : List Reg} {vs : List Word} (h : vs.length = regs.length) : (regs.zip vs).map Prod.fst = regs :=
  List.map_fst_zip (by omega)

theorem loadRegs_frame {s t : State} {k : BlockMode} {w : Bool} {rn : Reg} {list : BitVec 16} {target : Option Word}
    (h : s.loadRegs k w rn list = .ok (t, target)) :
    (∃ a b, s.blockAddress k rn list = .ok (a, b)) ∧ (w && (regsOf list).contains rn) = false ∧
      Frame s.bank (regsOf list ++ baseIf w rn) 0 s t ∧ t.mem = s.mem ∧ t.pc = s.advance.pc ∧ t.cpsr = s.cpsr := by
  obtain ⟨⟨a, b⟩, h1, h⟩ := bind_ok.mp h
  obtain ⟨_, h2, h⟩ := bind_ok.mp h
  obtain ⟨⟨vs, u⟩, h3, h⟩ := bind_ok.mp h
  obtain ⟨hr, hl⟩ := loadBlock_frame h3
  cases h
  have hu : u.bank = s.bank := hr.bus.bank
  have hb : (u.writeBack rn (if w then some b else none)).bank = s.bank := by cases w <;> simp [State.writeBack, hu]
  have hf := (((Frame.advance s.bank s).trans (hr.bus.frame _)).trans (Frame.writeBack hu rn (if w then some b else none))).trans
    (Frame.writeRegs hb ((regsOf list).zip vs))
  rw [zip_fst hl] at hf
  have hm : u.mem = s.mem := hr.mem
  have hp : u.pc = s.advance.pc := hr.bus.pc
  have hc : u.cpsr = s.cpsr := hr.bus.cpsr
  refine ⟨⟨a, b, h1⟩, faultIf_ok.mp h2, hf.mono (fun r hr => .inl ?_) (by simp), ?_, ?_, ?_⟩
  · cases w <;> simp_all [baseIf] ; tauto
  all_goals cases w <;> simp [State.writeBack, hm, hp, hc]

theorem loadMultiple_frame {s t : State} {k : BlockMode} {w : Bool} {rn : Reg} {list : BitVec 16}
    (h : s.loadMultiple k w rn list = .ok t) : Frame s.bank (regsOf list ++ baseIf w rn) 0 s t ∧ t.mem = s.mem := by
  obtain ⟨⟨u, target⟩, h1, h⟩ := bind_ok.mp h
  obtain ⟨_, _, hf, hm, _⟩ := loadRegs_frame h1
  simp only at h
  split at h
  · obtain ⟨rfl, _⟩ := writePcArm_ok h
    exact ⟨(hf.trans (Frame.ofPc _ _ _)).mono (fun r hr => .inl (by simpa using hr)) (by simp), hm⟩
  · cases h
    exact ⟨hf, hm⟩

theorem loadMultipleRestore_frame {s t : State} {k : BlockMode} {w : Bool} {rn : Reg} {list : BitVec 16}
    (h : s.loadMultipleRestore k w rn list = .ok t) :
    s.spsr?.isSome = true ∧ Frame s.bank (regsOf list ++ baseIf w rn) 0xFFFFFFFF#32 s t ∧ t.mem = s.mem ∧ t.ModeOk := by
  obtain ⟨_, h0, h⟩ := bind_ok.mp h
  obtain ⟨⟨u, target⟩, h1, h⟩ := bind_ok.mp h
  obtain ⟨v, h2, h⟩ := bind_ok.mp h
  obtain ⟨_, _, hf, hm, _⟩ := loadRegs_frame h1
  have hs : s.spsr?.isSome = true := by
    have := faultIf_ok.mp h0
    cases hs : s.spsr? <;> simp_all
  have hv : v.ModeOk := by obtain ⟨k, _, rfl, hk⟩ := restoreCpsr_ok h2; exact hk
  have hvm : v.mem = s.mem := (Quiet.restore h2).mem.trans hm
  have hf2 := hf.trans (Frame.restore h2)
  split at h
  · refine ⟨hs, (hf2.trans (Frame.afterRestore h)).mono (fun r hr => .inl (by simpa using hr)) (by simp), (Quiet.afterRestore h).mem.trans hvm, ?_⟩
    rcases writePcAfterRestore_ok h with ⟨_, rfl⟩ | ⟨_, _, rfl⟩ <;> exact hv
  · cases h
    exact ⟨hs, hf2.mono (fun r hr => .inl (by simpa using hr)) (by simp), hvm, hv⟩

end Sys2Proof.Machine
end

