-- ==== Sys2Proof/Laws/FramesThumb.lean ====
section
/-! SUPPORT. Laws/FramesThumb.lean: what the meanings of the services and of the Thumb instructions can change (Laws/Frames.lean). -/
namespace Sys2Proof.Machine
open Sys2Proof

/-! ### Services (47_swi_and_undefined.md R301 to R308) -/

theorem access_frame {s t : State} {x : BusAccess} {v : Word} (h : s.access x = .ok (v, t)) : BusFrame s t := by
  cases x with
  | read a w => exact (memRead_frame h).bus
  | write a w y =>
    obtain ⟨u, h1, h⟩ := bind_ok.mp h
    cases h
    exact memWrite_frame h1

theorem accesses_frame {next : List Word → Option BusAccess} {n : Nat} {seen : List Word} {s t : State}
    (h : State.accesses next n seen s = .ok t) : BusFrame s t := by
  induction n generalizing seen s with
  | zero => cases h; exact BusFrame.refl _
  | succ n ih =>
    simp only [State.accesses] at h
    split at h
    · cases h; exact BusFrame.refl _
    · obtain ⟨⟨v, u⟩, h1, h⟩ := bind_ok.mp h
      exact (access_frame h1).trans (ih h)

/-- A service: the halt, or registers among R0, R1 and R3 and accesses to the bus. -/
theorem service_frame {s t : State} {svc : Word} (h : s.service svc = .ok t) :
    t = { s.advance with halted := true } ∨ Frame s.bank [0, 1, 3] 0 s t := by
  have ha := Frame.advance s.bank s
  have h0 : ∀ v, Frame s.bank [0, 1, 3] 0 s (s.advance.writeReg 0 v) := fun v =>
    (ha.trans (Frame.writeReg (s := s.advance) rfl 0 v)).mono (by simp) (by simp)
  unfold State.service at h
  split at h
  · cases h; exact .inl rfl
  refine .inr ?_
  split at h
  · obtain ⟨_, _, h⟩ := bind_ok.mp h
    cases h
    refine (((h0 _).trans (Frame.writeReg (s := s.advance.writeReg 0 _) (by simp) 1 _)).trans
      (Frame.writeReg (s := (s.advance.writeReg 0 _).writeReg 1 _) (by simp) 3 _)).mono ?_ (by simp)
    intro r hr
    refine .inl ?_
    simp only [List.mem_append, List.mem_cons, List.not_mem_nil, or_false] at hr ⊢
    tauto
  split at h
  · cases h; exact h0 _
  split at h
  · cases h; exact h0 _
  split at h
  · cases h; exact h0 _
  split at h
  · exact (ha.trans ((accesses_frame h).frame _)).mono (by simp) (by simp)
  · cases h; exact ha.mono (by simp) (by simp)

/-! ### Thumb data operations (48_thumb_data_ops.md) -/

theorem shiftT_frame {s t : State} {rd : LowReg} {o : Word × Bool} (h : s.shiftT rd o = .ok t) :
    Frame s.bank [rd.reg] 0xE0000000#32 s t ∧ Quiet s t := by
  cases h
  exact ⟨((((Frame.advance s.bank s).trans (Frame.writeReg (s := s.advance) rfl rd.reg _)).trans
      (Frame.setNZ _ _ o.1 0xE0000000#32 rfl rfl)).trans (Frame.setBit _ (State.setNZ _ o.1) 29 o.2 0xE0000000#32 (by omega) rfl)).mono (by simp) (by simp),
    (Quiet.advance s).trans ((Quiet.writeReg s.advance _ _).trans ⟨rfl, rfl, rfl⟩)⟩

theorem arithT_frame {s t : State} {rd : LowReg} {r : Sum} (h : s.arithT rd r = .ok t) :
    Frame s.bank [rd.reg] 0xF0000000#32 s t ∧ Quiet s t := by
  cases h
  exact ⟨(((Frame.advance s.bank s).trans (Frame.writeReg (s := s.advance) rfl rd.reg _)).trans
      (Frame.setFlags _ _ (arithmetic r) 0xF0000000#32 (.inl rfl))).mono (by simp) (by simp),
    (Quiet.advance s).trans ((Quiet.writeReg s.advance _ _).trans (Quiet.setFlags _ _))⟩

theorem compareT_frame {s t : State} {r : Sum} (h : s.compareT r = .ok t) : Frame s.bank [] 0xF0000000#32 s t ∧ Quiet s t := by
  cases h
  exact ⟨((Frame.advance s.bank s).trans (Frame.setFlags _ _ (arithmetic r) 0xF0000000#32 (.inl rfl))).mono (by simp) (by simp),
    (Quiet.advance s).trans (Quiet.setFlags _ _)⟩

theorem logicT_frame {s t : State} {rd : LowReg} {v : Word} (h : s.logicT rd v = .ok t) :
    Frame s.bank [rd.reg] 0xC0000000#32 s t ∧ Quiet s t := by
  cases h
  exact ⟨(((Frame.advance s.bank s).trans (Frame.writeReg (s := s.advance) rfl rd.reg _)).trans
      (Frame.setNZ _ _ v 0xC0000000#32 rfl rfl)).mono (by simp) (by simp),
    (Quiet.advance s).trans ((Quiet.writeReg s.advance _ _).trans ⟨rfl, rfl, rfl⟩)⟩

theorem testT_frame {s t : State} {v : Word} (h : s.testT v = .ok t) : Frame s.bank [] 0xC0000000#32 s t ∧ Quiet s t := by
  cases h
  exact ⟨((Frame.advance s.bank s).trans (Frame.setNZ _ _ v 0xC0000000#32 rfl rfl)).mono (by simp) (by simp),
    (Quiet.advance s).trans ⟨rfl, rfl, rfl⟩⟩

theorem multiplyT_frame {s t : State} {rs rd : LowReg} (h : s.multiplyT rs rd = .ok t) :
    rd ≠ rs ∧ Frame s.bank [rd.reg] 0xC0000000#32 s t ∧ Quiet s t := by
  obtain ⟨_, h1, h⟩ := bind_ok.mp h
  exact ⟨by simpa using faultIf_ok.mp h1, logicT_frame h⟩

theorem writeHi_frame {s t : State} {h1 h2 : Bool} {d : Reg} {v : Word} (h : s.writeHi h1 h2 d v = .ok t) :
    (h1 || h2) = true ∧ Frame s.bank [d] 0 s t ∧ Quiet s t := by
  obtain ⟨_, h0, h⟩ := bind_ok.mp h
  refine ⟨by have := faultIf_ok.mp h0; cases h1 <;> cases h2 <;> simp_all, ?_⟩
  cases h
  split
  · exact ⟨(Frame.ofPc _ _ _).mono (by simp) (by simp), ⟨rfl, rfl, rfl⟩⟩
  · exact ⟨((Frame.advance s.bank s).trans (Frame.writeReg (s := s.advance) rfl d _)).mono (by simp) (by simp),
      (Quiet.advance s).trans (Quiet.writeReg s.advance _ _)⟩

theorem compareHi_frame {s t : State} {h1 h2 : Bool} {r : Sum} (h : s.compareHi h1 h2 r = .ok t) :
    (h1 || h2) = true ∧ Frame s.bank [] 0xF0000000#32 s t ∧ Quiet s t := by
  obtain ⟨_, h0, h⟩ := bind_ok.mp h
  exact ⟨by have := faultIf_ok.mp h0; cases h1 <;> cases h2 <;> simp_all, compareT_frame h⟩

/-- A register written after the advance. -/
theorem advance_writeReg_frame (s : State) (r : Reg) (v : Word) :
    Frame s.bank [r] 0 s (s.advance.writeReg r v) ∧ Quiet s (s.advance.writeReg r v) :=
  ⟨((Frame.advance s.bank s).trans (Frame.writeReg (s := s.advance) rfl r v)).mono (by simp) (by simp),
    (Quiet.advance s).trans (Quiet.writeReg s.advance _ _)⟩

/-! ### Thumb loads and stores (49_thumb_load_store_branch.md) -/

theorem loadT_frame {s t : State} {k : LoadKind} {a : Word} {rd : LowReg} (h : s.loadT k a rd = .ok t) :
    Frame s.bank [rd.reg] 0 s t ∧ t.mem = s.mem := by
  obtain ⟨⟨v, u⟩, h1, h⟩ := bind_ok.mp h
  have hr := dataRead_frame h1
  cases h
  refine ⟨(((Frame.advance s.bank s).trans (hr.bus.frame _)).trans (Frame.writeReg hr.bus.bank rd.reg v)).mono (by simp) (by simp), ?_⟩
  simpa using hr.mem

theorem storeT_frame {s t : State} {w : Width} {a : Word} {rd : LowReg} (h : s.storeT w a rd = .ok t) : Frame s.bank [] 0 s t :=
  ((Frame.advance s.bank s).trans ((dataWrite_frame h).frame _)).mono (by simp) (by simp)

theorem push_ok {s t : State} {regs : List Reg} (h : s.push regs = .ok t) :
    regs ≠ [] ∧ ∃ u, s.advance.storeBlock (s.readReg 13 - blockBytes regs.length) (regs.map s.readReg) = .ok u ∧
      t = u.writeReg 13 (s.readReg 13 - blockBytes regs.length) := by
  obtain ⟨_, h0, h⟩ := bind_ok.mp h
  obtain ⟨u, h1, h⟩ := bind_ok.mp h
  cases h
  exact ⟨by simpa using faultIf_ok.mp h0, u, h1, rfl⟩

theorem push_frame {s t : State} {regs : List Reg} (h : s.push regs = .ok t) : Frame s.bank [13] 0 s t := by
  obtain ⟨_, u, h1, rfl⟩ := push_ok h
  have hb := storeBlock_frame h1
  exact (((Frame.advance s.bank s).trans (hb.frame _)).trans (Frame.writeReg hb.bank 13 _)).mono (by simp) (by simp)

theorem pop_frame {s t : State} {regs : List Reg} {r : Bool} (h : s.pop regs r = .ok t) :
    regs ≠ [] ∧ Frame s.bank (13 :: regs) 0 s t ∧ t.mem = s.mem := by
  obtain ⟨_, h0, h⟩ := bind_ok.mp h
  obtain ⟨⟨vs, u⟩, h1, h⟩ := bind_ok.mp h
  obtain ⟨hr, hl⟩ := loadBlock_frame h1
  have hu : (u.writeReg 13 (s.readReg 13 + blockBytes regs.length)).bank = s.bank := by simpa using hr.bus.bank
  have hf := (((Frame.advance s.bank s).trans (hr.bus.frame _)).trans
    (Frame.writeReg hr.bus.bank 13 (s.readReg 13 + blockBytes regs.length))).trans (Frame.writeRegs hu (regs.zip vs))
  rw [zip_fst hl] at hf
  have hm : u.mem = s.mem := hr.mem
  refine ⟨by simpa using faultIf_ok.mp h0, ?_⟩
  cases r
  · cases h
    exact ⟨hf.mono (fun r hr => .inl (by simpa using hr)) (by simp), by simpa using hm⟩
  · obtain ⟨_, rfl⟩ := writePcPop_ok h
    exact ⟨(hf.trans (Frame.ofPc _ _ _)).mono (fun r hr => .inl (by simpa using hr)) (by simp), by simpa using hm⟩

theorem storeMultipleT_ok {s t : State} {rb : Reg} {regs : List Reg} (h : s.storeMultipleT rb regs = .ok t) :
    regs ≠ [] ∧ (regs.contains rb && regs.head? != some rb) = false ∧
      ∃ u, s.advance.storeBlock (s.readReg rb) (regs.map s.readReg) = .ok u ∧
        t = u.writeReg rb (s.readReg rb + blockBytes regs.length) := by
  obtain ⟨_, h0, h⟩ := bind_ok.mp h
  obtain ⟨_, h1, h⟩ := bind_ok.mp h
  obtain ⟨u, h2, h⟩ := bind_ok.mp h
  cases h
  exact ⟨by simpa using faultIf_ok.mp h0, faultIf_ok.mp h1, u, h2, rfl⟩

theorem storeMultipleT_frame {s t : State} {rb : Reg} {regs : List Reg} (h : s.storeMultipleT rb regs = .ok t) :
    Frame s.bank [rb] 0 s t := by
  obtain ⟨_, _, u, h1, rfl⟩ := storeMultipleT_ok h
  have hb := storeBlock_frame h1
  exact (((Frame.advance s.bank s).trans (hb.frame _)).trans (Frame.writeReg hb.bank rb _)).mono (by simp) (by simp)

theorem loadMultipleT_frame {s t : State} {rb : Reg} {regs : List Reg} (h : s.loadMultipleT rb regs = .ok t) :
    regs ≠ [] ∧ regs.contains rb = false ∧ Frame s.bank (rb :: regs) 0 s t ∧ t.mem = s.mem := by
  obtain ⟨_, h0, h⟩ := bind_ok.mp h
  obtain ⟨_, h1, h⟩ := bind_ok.mp h
  obtain ⟨⟨vs, u⟩, h2, h⟩ := bind_ok.mp h
  obtain ⟨hr, hl⟩ := loadBlock_frame h2
  have hu : (u.writeReg rb (s.readReg rb + blockBytes regs.length)).bank = s.bank := by simpa using hr.bus.bank
  have hf := (((Frame.advance s.bank s).trans (hr.bus.frame _)).trans
    (Frame.writeReg hr.bus.bank rb (s.readReg rb + blockBytes regs.length))).trans (Frame.writeRegs hu (regs.zip vs))
  rw [zip_fst hl] at hf
  have hm : u.mem = s.mem := hr.mem
  cases h
  exact ⟨by simpa using faultIf_ok.mp h0, faultIf_ok.mp h1, hf.mono (fun r hr => .inl (by simpa using hr)) (by simp), by simpa using hm⟩

/-! ### Thumb branches -/

theorem branchIfT_frame {s t : State} {c : Cond} {n : BitVec 8} (h : s.branchIfT c n = .ok t) : Frame s.bank [] 0 s t ∧ Quiet s t := by
  cases h
  split
  · exact ⟨Frame.ofPc _ _ _, ⟨rfl, rfl, rfl⟩⟩
  · exact ⟨Frame.advance _ _, Quiet.advance _⟩

end Sys2Proof.Machine
end

