-- ==== Sys2Proof/Laws/PerInstr.lean ====
section
/-! SUPPORT. Laws/PerInstr.lean: the per-instruction family `EncodedRow`, about an instruction as syntax: the encoder's word is of a
row of the opcode table that builds the instruction back (30_encoding.md R133). -/
namespace Sys2Proof.Laws.EncodedRow
set_option linter.unusedSimpArgs false
open Sys2Proof

/-- The encoding of the instruction is accepted by a row of its state's table, and that row builds the instruction. -/
def Statement (i : Instr) : Prop :=
  match encode i with
  | .arm v => ∃ r ∈ armRows, r.accepts v = true ∧ r.build v = i
  | .thumb h => ∃ r ∈ thumbRows, r.accepts h = true ∧ r.build h = i

theorem arm_row {i : Instr} {v : Word} (k : Nat) (hk : k < armRows.length) (he : encode i = .arm v)
    (ha : v &&& (armRows[k]).mask = (armRows[k]).value) (hb : (armRows[k]).build v = i) : Statement i := by
  unfold Statement
  rw [he]
  exact ⟨armRows[k], List.getElem_mem _, by simpa [Row.accepts] using ha, hb⟩

theorem thumb_row {i : Instr} {v : Half} (k : Nat) (hk : k < thumbRows.length) (he : encode i = .thumb v)
    (ha : v &&& (thumbRows[k]).mask = (thumbRows[k]).value) (hb : (thumbRows[k]).build v = i) : Statement i := by
  unfold Statement
  rw [he]
  exact ⟨thumbRows[k], List.getElem_mem _, by simpa [Row.accepts] using ha, hb⟩

theorem get_numeral {w : Nat} (x : Nat) (lo n : Nat) : get (BitVec.ofNat w x) lo n = (BitVec.ofNat w x).extractLsb' lo n := rfl

theorem andImm (c : Cond) (setf : Bool) (rn rd : Reg) (rot : BitVec 4) (imm8 : BitVec 8) : Statement (.andImm c setf rn rd rot imm8) := by
  refine arm_row 0 (by decide) rfl ?_ ?_
  · change _ &&& 0x0FE00000#32 = 0x02000000#32
    simp (disch := decide) [or_and, put_and]
  · change Instr.andImm (Cond.ofBits (get _ 28 4)) (flagOf (get _ 20 1)) (regOf (get _ 16 4)) (regOf (get _ 12 4)) (get _ 8 4) (get _ 0 8) = _
    simp [get_or, get_put, get_put_ne, get_numeral]

theorem andRsi (c : Cond) (setf : Bool) (rn rd : Reg) (shiftImm : BitVec 5) (st : ShiftType) (rm : Reg) : Statement (.andRsi c setf rn rd shiftImm st rm) := by
  refine arm_row 16 (by decide) rfl ?_ ?_
  · change _ &&& 0x0FE00010#32 = 0x00000000#32
    simp (disch := decide) [or_and, put_and]
  · change Instr.andRsi (Cond.ofBits (get _ 28 4)) (flagOf (get _ 20 1)) (regOf (get _ 16 4)) (regOf (get _ 12 4)) (get _ 7 5) (ShiftType.ofBits (get _ 5 2)) (regOf (get _ 0 4)) = _
    simp [get_or, get_put, get_put_ne, get_numeral]

theorem andRsr (c : Cond) (setf : Bool) (rn rd rs : Reg) (st : ShiftType) (rm : Reg) : Statement (.andRsr c setf rn rd rs st rm) := by
  refine arm_row 32 (by decide) rfl ?_ ?_
  · change _ &&& 0x0FE00090#32 = 0x00000010#32
    simp (disch := decide) [or_and, put_and]
  · change Instr.andRsr (Cond.ofBits (get _ 28 4)) (flagOf (get _ 20 1)) (regOf (get _ 16 4)) (regOf (get _ 12 4)) (regOf (get _ 8 4)) (ShiftType.ofBits (get _ 5 2)) (regOf (get _ 0 4)) = _
    simp [get_or, get_put, get_put_ne, get_numeral]

theorem eorImm (c : Cond) (setf : Bool) (rn rd : Reg) (rot : BitVec 4) (imm8 : BitVec 8) : Statement (.eorImm c setf rn rd rot imm8) := by
  refine arm_row 1 (by decide) rfl ?_ ?_
  · change _ &&& 0x0FE00000#32 = 0x02200000#32
    simp (disch := decide) [or_and, put_and]
  · change Instr.eorImm (Cond.ofBits (get _ 28 4)) (flagOf (get _ 20 1)) (regOf (get _ 16 4)) (regOf (get _ 12 4)) (get _ 8 4) (get _ 0 8) = _
    simp [get_or, get_put, get_put_ne, get_numeral]

theorem eorRsi (c : Cond) (setf : Bool) (rn rd : Reg) (shiftImm : BitVec 5) (st : ShiftType) (rm : Reg) : Statement (.eorRsi c setf rn rd shiftImm st rm) := by
  refine arm_row 17 (by decide) rfl ?_ ?_
  · change _ &&& 0x0FE00010#32 = 0x00200000#32
    simp (disch := decide) [or_and, put_and]
  · change Instr.eorRsi (Cond.ofBits (get _ 28 4)) (flagOf (get _ 20 1)) (regOf (get _ 16 4)) (regOf (get _ 12 4)) (get _ 7 5) (ShiftType.ofBits (get _ 5 2)) (regOf (get _ 0 4)) = _
    simp [get_or, get_put, get_put_ne, get_numeral]

theorem eorRsr (c : Cond) (setf : Bool) (rn rd rs : Reg) (st : ShiftType) (rm : Reg) : Statement (.eorRsr c setf rn rd rs st rm) := by
  refine arm_row 33 (by decide) rfl ?_ ?_
  · change _ &&& 0x0FE00090#32 = 0x00200010#32
    simp (disch := decide) [or_and, put_and]
  · change Instr.eorRsr (Cond.ofBits (get _ 28 4)) (flagOf (get _ 20 1)) (regOf (get _ 16 4)) (regOf (get _ 12 4)) (regOf (get _ 8 4)) (ShiftType.ofBits (get _ 5 2)) (regOf (get _ 0 4)) = _
    simp [get_or, get_put, get_put_ne, get_numeral]

theorem subImm (c : Cond) (setf : Bool) (rn rd : Reg) (rot : BitVec 4) (imm8 : BitVec 8) : Statement (.subImm c setf rn rd rot imm8) := by
  refine arm_row 2 (by decide) rfl ?_ ?_
  · change _ &&& 0x0FE00000#32 = 0x02400000#32
    simp (disch := decide) [or_and, put_and]
  · change Instr.subImm (Cond.ofBits (get _ 28 4)) (flagOf (get _ 20 1)) (regOf (get _ 16 4)) (regOf (get _ 12 4)) (get _ 8 4) (get _ 0 8) = _
    simp [get_or, get_put, get_put_ne, get_numeral]

theorem subRsi (c : Cond) (setf : Bool) (rn rd : Reg) (shiftImm : BitVec 5) (st : ShiftType) (rm : Reg) : Statement (.subRsi c setf rn rd shiftImm st rm) := by
  refine arm_row 18 (by decide) rfl ?_ ?_
  · change _ &&& 0x0FE00010#32 = 0x00400000#32
    simp (disch := decide) [or_and, put_and]
  · change Instr.subRsi (Cond.ofBits (get _ 28 4)) (flagOf (get _ 20 1)) (regOf (get _ 16 4)) (regOf (get _ 12 4)) (get _ 7 5) (ShiftType.ofBits (get _ 5 2)) (regOf (get _ 0 4)) = _
    simp [get_or, get_put, get_put_ne, get_numeral]

theorem subRsr (c : Cond) (setf : Bool) (rn rd rs : Reg) (st : ShiftType) (rm : Reg) : Statement (.subRsr c setf rn rd rs st rm) := by
  refine arm_row 34 (by decide) rfl ?_ ?_
  · change _ &&& 0x0FE00090#32 = 0x00400010#32
    simp (disch := decide) [or_and, put_and]
  · change Instr.subRsr (Cond.ofBits (get _ 28 4)) (flagOf (get _ 20 1)) (regOf (get _ 16 4)) (regOf (get _ 12 4)) (regOf (get _ 8 4)) (ShiftType.ofBits (get _ 5 2)) (regOf (get _ 0 4)) = _
    simp [get_or, get_put, get_put_ne, get_numeral]

theorem rsbImm (c : Cond) (setf : Bool) (rn rd : Reg) (rot : BitVec 4) (imm8 : BitVec 8) : Statement (.rsbImm c setf rn rd rot imm8) := by
  refine arm_row 3 (by decide) rfl ?_ ?_
  · change _ &&& 0x0FE00000#32 = 0x02600000#32
    simp (disch := decide) [or_and, put_and]
  · change Instr.rsbImm (Cond.ofBits (get _ 28 4)) (flagOf (get _ 20 1)) (regOf (get _ 16 4)) (regOf (get _ 12 4)) (get _ 8 4) (get _ 0 8) = _
    simp [get_or, get_put, get_put_ne, get_numeral]

theorem rsbRsi (c : Cond) (setf : Bool) (rn rd : Reg) (shiftImm : BitVec 5) (st : ShiftType) (rm : Reg) : Statement (.rsbRsi c setf rn rd shiftImm st rm) := by
  refine arm_row 19 (by decide) rfl ?_ ?_
  · change _ &&& 0x0FE00010#32 = 0x00600000#32
    simp (disch := decide) [or_and, put_and]
  · change Instr.rsbRsi (Cond.ofBits (get _ 28 4)) (flagOf (get _ 20 1)) (regOf (get _ 16 4)) (regOf (get _ 12 4)) (get _ 7 5) (ShiftType.ofBits (get _ 5 2)) (regOf (get _ 0 4)) = _
    simp [get_or, get_put, get_put_ne, get_numeral]

theorem rsbRsr (c : Cond) (setf : Bool) (rn rd rs : Reg) (st : ShiftType) (rm : Reg) : Statement (.rsbRsr c setf rn rd rs st rm) := by
  refine arm_row 35 (by decide) rfl ?_ ?_
  · change _ &&& 0x0FE00090#32 = 0x00600010#32
    simp (disch := decide) [or_and, put_and]
  · change Instr.rsbRsr (Cond.ofBits (get _ 28 4)) (flagOf (get _ 20 1)) (regOf (get _ 16 4)) (regOf (get _ 12 4)) (regOf (get _ 8 4)) (ShiftType.ofBits (get _ 5 2)) (regOf (get _ 0 4)) = _
    simp [get_or, get_put, get_put_ne, get_numeral]

theorem addImm (c : Cond) (setf : Bool) (rn rd : Reg) (rot : BitVec 4) (imm8 : BitVec 8) : Statement (.addImm c setf rn rd rot imm8) := by
  refine arm_row 4 (by decide) rfl ?_ ?_
  · change _ &&& 0x0FE00000#32 = 0x02800000#32
    simp (disch := decide) [or_and, put_and]
  · change Instr.addImm (Cond.ofBits (get _ 28 4)) (flagOf (get _ 20 1)) (regOf (get _ 16 4)) (regOf (get _ 12 4)) (get _ 8 4) (get _ 0 8) = _
    simp [get_or, get_put, get_put_ne, get_numeral]

theorem addRsi (c : Cond) (setf : Bool) (rn rd : Reg) (shiftImm : BitVec 5) (st : ShiftType) (rm : Reg) : Statement (.addRsi c setf rn rd shiftImm st rm) := by
  refine arm_row 20 (by decide) rfl ?_ ?_
  · change _ &&& 0x0FE00010#32 = 0x00800000#32
    simp (disch := decide) [or_and, put_and]
  · change Instr.addRsi (Cond.ofBits (get _ 28 4)) (flagOf (get _ 20 1)) (regOf (get _ 16 4)) (regOf (get _ 12 4)) (get _ 7 5) (ShiftType.ofBits (get _ 5 2)) (regOf (get _ 0 4)) = _
    simp [get_or, get_put, get_put_ne, get_numeral]

theorem addRsr (c : Cond) (setf : Bool) (rn rd rs : Reg) (st : ShiftType) (rm : Reg) : Statement (.addRsr c setf rn rd rs st rm) := by
  refine arm_row 36 (by decide) rfl ?_ ?_
  · change _ &&& 0x0FE00090#32 = 0x00800010#32
    simp (disch := decide) [or_and, put_and]
  · change Instr.addRsr (Cond.ofBits (get _ 28 4)) (flagOf (get _ 20 1)) (regOf (get _ 16 4)) (regOf (get _ 12 4)) (regOf (get _ 8 4)) (ShiftType.ofBits (get _ 5 2)) (regOf (get _ 0 4)) = _
    simp [get_or, get_put, get_put_ne, get_numeral]

theorem adcImm (c : Cond) (setf : Bool) (rn rd : Reg) (rot : BitVec 4) (imm8 : BitVec 8) : Statement (.adcImm c setf rn rd rot imm8) := by
  refine arm_row 5 (by decide) rfl ?_ ?_
  · change _ &&& 0x0FE00000#32 = 0x02A00000#32
    simp (disch := decide) [or_and, put_and]
  · change Instr.adcImm (Cond.ofBits (get _ 28 4)) (flagOf (get _ 20 1)) (regOf (get _ 16 4)) (regOf (get _ 12 4)) (get _ 8 4) (get _ 0 8) = _
    simp [get_or, get_put, get_put_ne, get_numeral]

theorem adcRsi (c : Cond) (setf : Bool) (rn rd : Reg) (shiftImm : BitVec 5) (st : ShiftType) (rm : Reg) : Statement (.adcRsi c setf rn rd shiftImm st rm) := by
  refine arm_row 21 (by decide) rfl ?_ ?_
  · change _ &&& 0x0FE00010#32 = 0x00A00000#32
    simp (disch := decide) [or_and, put_and]
  · change Instr.adcRsi (Cond.ofBits (get _ 28 4)) (flagOf (get _ 20 1)) (regOf (get _ 16 4)) (regOf (get _ 12 4)) (get _ 7 5) (ShiftType.ofBits (get _ 5 2)) (regOf (get _ 0 4)) = _
    simp [get_or, get_put, get_put_ne, get_numeral]

theorem adcRsr (c : Cond) (setf : Bool) (rn rd rs : Reg) (st : ShiftType) (rm : Reg) : Statement (.adcRsr c setf rn rd rs st rm) := by
  refine arm_row 37 (by decide) rfl ?_ ?_
  · change _ &&& 0x0FE00090#32 = 0x00A00010#32
    simp (disch := decide) [or_and, put_and]
  · change Instr.adcRsr (Cond.ofBits (get _ 28 4)) (flagOf (get _ 20 1)) (regOf (get _ 16 4)) (regOf (get _ 12 4)) (regOf (get _ 8 4)) (ShiftType.ofBits (get _ 5 2)) (regOf (get _ 0 4)) = _
    simp [get_or, get_put, get_put_ne, get_numeral]

theorem sbcImm (c : Cond) (setf : Bool) (rn rd : Reg) (rot : BitVec 4) (imm8 : BitVec 8) : Statement (.sbcImm c setf rn rd rot imm8) := by
  refine arm_row 6 (by decide) rfl ?_ ?_
  · change _ &&& 0x0FE00000#32 = 0x02C00000#32
    simp (disch := decide) [or_and, put_and]
  · change Instr.sbcImm (Cond.ofBits (get _ 28 4)) (flagOf (get _ 20 1)) (regOf (get _ 16 4)) (regOf (get _ 12 4)) (get _ 8 4) (get _ 0 8) = _
    simp [get_or, get_put, get_put_ne, get_numeral]

theorem sbcRsi (c : Cond) (setf : Bool) (rn rd : Reg) (shiftImm : BitVec 5) (st : ShiftType) (rm : Reg) : Statement (.sbcRsi c setf rn rd shiftImm st rm) := by
  refine arm_row 22 (by decide) rfl ?_ ?_
  · change _ &&& 0x0FE00010#32 = 0x00C00000#32
    simp (disch := decide) [or_and, put_and]
  · change Instr.sbcRsi (Cond.ofBits (get _ 28 4)) (flagOf (get _ 20 1)) (regOf (get _ 16 4)) (regOf (get _ 12 4)) (get _ 7 5) (ShiftType.ofBits (get _ 5 2)) (regOf (get _ 0 4)) = _
    simp [get_or, get_put, get_put_ne, get_numeral]

theorem sbcRsr (c : Cond) (setf : Bool) (rn rd rs : Reg) (st : ShiftType) (rm : Reg) : Statement (.sbcRsr c setf rn rd rs st rm) := by
  refine arm_row 38 (by decide) rfl ?_ ?_
  · change _ &&& 0x0FE00090#32 = 0x00C00010#32
    simp (disch := decide) [or_and, put_and]
  · change Instr.sbcRsr (Cond.ofBits (get _ 28 4)) (flagOf (get _ 20 1)) (regOf (get _ 16 4)) (regOf (get _ 12 4)) (regOf (get _ 8 4)) (ShiftType.ofBits (get _ 5 2)) (regOf (get _ 0 4)) = _
    simp [get_or, get_put, get_put_ne, get_numeral]

theorem rscImm (c : Cond) (setf : Bool) (rn rd : Reg) (rot : BitVec 4) (imm8 : BitVec 8) : Statement (.rscImm c setf rn rd rot imm8) := by
  refine arm_row 7 (by decide) rfl ?_ ?_
  · change _ &&& 0x0FE00000#32 = 0x02E00000#32
    simp (disch := decide) [or_and, put_and]
  · change Instr.rscImm (Cond.ofBits (get _ 28 4)) (flagOf (get _ 20 1)) (regOf (get _ 16 4)) (regOf (get _ 12 4)) (get _ 8 4) (get _ 0 8) = _
    simp [get_or, get_put, get_put_ne, get_numeral]

theorem rscRsi (c : Cond) (setf : Bool) (rn rd : Reg) (shiftImm : BitVec 5) (st : ShiftType) (rm : Reg) : Statement (.rscRsi c setf rn rd shiftImm st rm) := by
  refine arm_row 23 (by decide) rfl ?_ ?_
  · change _ &&& 0x0FE00010#32 = 0x00E00000#32
    simp (disch := decide) [or_and, put_and]
  · change Instr.rscRsi (Cond.ofBits (get _ 28 4)) (flagOf (get _ 20 1)) (regOf (get _ 16 4)) (regOf (get _ 12 4)) (get _ 7 5) (ShiftType.ofBits (get _ 5 2)) (regOf (get _ 0 4)) = _
    simp [get_or, get_put, get_put_ne, get_numeral]

theorem rscRsr (c : Cond) (setf : Bool) (rn rd rs : Reg) (st : ShiftType) (rm : Reg) : Statement (.rscRsr c setf rn rd rs st rm) := by
  refine arm_row 39 (by decide) rfl ?_ ?_
  · change _ &&& 0x0FE00090#32 = 0x00E00010#32
    simp (disch := decide) [or_and, put_and]
  · change Instr.rscRsr (Cond.ofBits (get _ 28 4)) (flagOf (get _ 20 1)) (regOf (get _ 16 4)) (regOf (get _ 12 4)) (regOf (get _ 8 4)) (ShiftType.ofBits (get _ 5 2)) (regOf (get _ 0 4)) = _
    simp [get_or, get_put, get_put_ne, get_numeral]

theorem tstImm (c : Cond) (rn : Reg) (rot : BitVec 4) (imm8 : BitVec 8) : Statement (.tstImm c rn rot imm8) := by
  refine arm_row 8 (by decide) rfl ?_ ?_
  · change _ &&& 0x0FF00000#32 = 0x03100000#32
    simp (disch := decide) [or_and, put_and]
  · change Instr.tstImm (Cond.ofBits (get _ 28 4)) (regOf (get _ 16 4)) (get _ 8 4) (get _ 0 8) = _
    simp [get_or, get_put, get_put_ne, get_numeral]

theorem tstRsi (c : Cond) (rn : Reg) (shiftImm : BitVec 5) (st : ShiftType) (rm : Reg) : Statement (.tstRsi c rn shiftImm st rm) := by
  refine arm_row 24 (by decide) rfl ?_ ?_
  · change _ &&& 0x0FF00010#32 = 0x01100000#32
    simp (disch := decide) [or_and, put_and]
  · change Instr.tstRsi (Cond.ofBits (get _ 28 4)) (regOf (get _ 16 4)) (get _ 7 5) (ShiftType.ofBits (get _ 5 2)) (regOf (get _ 0 4)) = _
    simp [get_or, get_put, get_put_ne, get_numeral]

theorem tstRsr (c : Cond) (rn rd rs : Reg) (st : ShiftType) (rm : Reg) : Statement (.tstRsr c rn rd rs st rm) := by
  refine arm_row 40 (by decide) rfl ?_ ?_
  · change _ &&& 0x0FF00090#32 = 0x01100010#32
    simp (disch := decide) [or_and, put_and]
  · change Instr.tstRsr (Cond.ofBits (get _ 28 4)) (regOf (get _ 16 4)) (regOf (get _ 12 4)) (regOf (get _ 8 4)) (ShiftType.ofBits (get _ 5 2)) (regOf (get _ 0 4)) = _
    simp [get_or, get_put, get_put_ne, get_numeral]

theorem teqImm (c : Cond) (rn : Reg) (rot : BitVec 4) (imm8 : BitVec 8) : Statement (.teqImm c rn rot imm8) := by
  refine arm_row 9 (by decide) rfl ?_ ?_
  · change _ &&& 0x0FF00000#32 = 0x03300000#32
    simp (disch := decide) [or_and, put_and]
  · change Instr.teqImm (Cond.ofBits (get _ 28 4)) (regOf (get _ 16 4)) (get _ 8 4) (get _ 0 8) = _
    simp [get_or, get_put, get_put_ne, get_numeral]

theorem teqRsi (c : Cond) (rn : Reg) (shiftImm : BitVec 5) (st : ShiftType) (rm : Reg) : Statement (.teqRsi c rn shiftImm st rm) := by
  refine arm_row 25 (by decide) rfl ?_ ?_
  · change _ &&& 0x0FF00010#32 = 0x01300000#32
    simp (disch := decide) [or_and, put_and]
  · change Instr.teqRsi (Cond.ofBits (get _ 28 4)) (regOf (get _ 16 4)) (get _ 7 5) (ShiftType.ofBits (get _ 5 2)) (regOf (get _ 0 4)) = _
    simp [get_or, get_put, get_put_ne, get_numeral]

theorem teqRsr (c : Cond) (rn rd rs : Reg) (st : ShiftType) (rm : Reg) : Statement (.teqRsr c rn rd rs st rm) := by
  refine arm_row 41 (by decide) rfl ?_ ?_
  · change _ &&& 0x0FF00090#32 = 0x01300010#32
    simp (disch := decide) [or_and, put_and]
  · change Instr.teqRsr (Cond.ofBits (get _ 28 4)) (regOf (get _ 16 4)) (regOf (get _ 12 4)) (regOf (get _ 8 4)) (ShiftType.ofBits (get _ 5 2)) (regOf (get _ 0 4)) = _
    simp [get_or, get_put, get_put_ne, get_numeral]

theorem cmpImm (c : Cond) (rn : Reg) (rot : BitVec 4) (imm8 : BitVec 8) : Statement (.cmpImm c rn rot imm8) := by
  refine arm_row 10 (by decide) rfl ?_ ?_
  · change _ &&& 0x0FF00000#32 = 0x03500000#32
    simp (disch := decide) [or_and, put_and]
  · change Instr.cmpImm (Cond.ofBits (get _ 28 4)) (regOf (get _ 16 4)) (get _ 8 4) (get _ 0 8) = _
    simp [get_or, get_put, get_put_ne, get_numeral]

theorem cmpRsi (c : Cond) (rn : Reg) (shiftImm : BitVec 5) (st : ShiftType) (rm : Reg) : Statement (.cmpRsi c rn shiftImm st rm) := by
  refine arm_row 26 (by decide) rfl ?_ ?_
  · change _ &&& 0x0FF00010#32 = 0x01500000#32
    simp (disch := decide) [or_and, put_and]
  · change Instr.cmpRsi (Cond.ofBits (get _ 28 4)) (regOf (get _ 16 4)) (get _ 7 5) (ShiftType.ofBits (get _ 5 2)) (regOf (get _ 0 4)) = _
    simp [get_or, get_put, get_put_ne, get_numeral]

theorem cmpRsr (c : Cond) (rn rd rs : Reg) (st : ShiftType) (rm : Reg) : Statement (.cmpRsr c rn rd rs st rm) := by
  refine arm_row 42 (by decide) rfl ?_ ?_
  · change _ &&& 0x0FF00090#32 = 0x01500010#32
    simp (disch := decide) [or_and, put_and]
  · change Instr.cmpRsr (Cond.ofBits (get _ 28 4)) (regOf (get _ 16 4)) (regOf (get _ 12 4)) (regOf (get _ 8 4)) (ShiftType.ofBits (get _ 5 2)) (regOf (get _ 0 4)) = _
    simp [get_or, get_put, get_put_ne, get_numeral]

theorem cmnImm (c : Cond) (rn : Reg) (rot : BitVec 4) (imm8 : BitVec 8) : Statement (.cmnImm c rn rot imm8) := by
  refine arm_row 11 (by decide) rfl ?_ ?_
  · change _ &&& 0x0FF00000#32 = 0x03700000#32
    simp (disch := decide) [or_and, put_and]
  · change Instr.cmnImm (Cond.ofBits (get _ 28 4)) (regOf (get _ 16 4)) (get _ 8 4) (get _ 0 8) = _
    simp [get_or, get_put, get_put_ne, get_numeral]

theorem cmnRsi (c : Cond) (rn : Reg) (shiftImm : BitVec 5) (st : ShiftType) (rm : Reg) : Statement (.cmnRsi c rn shiftImm st rm) := by
  refine arm_row 27 (by decide) rfl ?_ ?_
  · change _ &&& 0x0FF00010#32 = 0x01700000#32
    simp (disch := decide) [or_and, put_and]
  · change Instr.cmnRsi (Cond.ofBits (get _ 28 4)) (regOf (get _ 16 4)) (get _ 7 5) (ShiftType.ofBits (get _ 5 2)) (regOf (get _ 0 4)) = _
    simp [get_or, get_put, get_put_ne, get_numeral]

theorem cmnRsr (c : Cond) (rn rd rs : Reg) (st : ShiftType) (rm : Reg) : Statement (.cmnRsr c rn rd rs st rm) := by
  refine arm_row 43 (by decide) rfl ?_ ?_
  · change _ &&& 0x0FF00090#32 = 0x01700010#32
    simp (disch := decide) [or_and, put_and]
  · change Instr.cmnRsr (Cond.ofBits (get _ 28 4)) (regOf (get _ 16 4)) (regOf (get _ 12 4)) (regOf (get _ 8 4)) (ShiftType.ofBits (get _ 5 2)) (regOf (get _ 0 4)) = _
    simp [get_or, get_put, get_put_ne, get_numeral]

theorem orrImm (c : Cond) (setf : Bool) (rn rd : Reg) (rot : BitVec 4) (imm8 : BitVec 8) : Statement (.orrImm c setf rn rd rot imm8) := by
  refine arm_row 12 (by decide) rfl ?_ ?_
  · change _ &&& 0x0FE00000#32 = 0x03800000#32
    simp (disch := decide) [or_and, put_and]
  · change Instr.orrImm (Cond.ofBits (get _ 28 4)) (flagOf (get _ 20 1)) (regOf (get _ 16 4)) (regOf (get _ 12 4)) (get _ 8 4) (get _ 0 8) = _
    simp [get_or, get_put, get_put_ne, get_numeral]

theorem orrRsi (c : Cond) (setf : Bool) (rn rd : Reg) (shiftImm : BitVec 5) (st : ShiftType) (rm : Reg) : Statement (.orrRsi c setf rn rd shiftImm st rm) := by
  refine arm_row 28 (by decide) rfl ?_ ?_
  · change _ &&& 0x0FE00010#32 = 0x01800000#32
    simp (disch := decide) [or_and, put_and]
  · change Instr.orrRsi (Cond.ofBits (get _ 28 4)) (flagOf (get _ 20 1)) (regOf (get _ 16 4)) (regOf (get _ 12 4)) (get _ 7 5) (ShiftType.ofBits (get _ 5 2)) (regOf (get _ 0 4)) = _
    simp [get_or, get_put, get_put_ne, get_numeral]

theorem orrRsr (c : Cond) (setf : Bool) (rn rd rs : Reg) (st : ShiftType) (rm : Reg) : Statement (.orrRsr c setf rn rd rs st rm) := by
  refine arm_row 44 (by decide) rfl ?_ ?_
  · change _ &&& 0x0FE00090#32 = 0x01800010#32
    simp (disch := decide) [or_and, put_and]
  · change Instr.orrRsr (Cond.ofBits (get _ 28 4)) (flagOf (get _ 20 1)) (regOf (get _ 16 4)) (regOf (get _ 12 4)) (regOf (get _ 8 4)) (ShiftType.ofBits (get _ 5 2)) (regOf (get _ 0 4)) = _
    simp [get_or, get_put, get_put_ne, get_numeral]

theorem movImm (c : Cond) (setf : Bool) (rd : Reg) (rot : BitVec 4) (imm8 : BitVec 8) : Statement (.movImm c setf rd rot imm8) := by
  refine arm_row 13 (by decide) rfl ?_ ?_
  · change _ &&& 0x0FE00000#32 = 0x03A00000#32
    simp (disch := decide) [or_and, put_and]
  · change Instr.movImm (Cond.ofBits (get _ 28 4)) (flagOf (get _ 20 1)) (regOf (get _ 12 4)) (get _ 8 4) (get _ 0 8) = _
    simp [get_or, get_put, get_put_ne, get_numeral]

theorem movRsi (c : Cond) (setf : Bool) (rd : Reg) (shiftImm : BitVec 5) (st : ShiftType) (rm : Reg) : Statement (.movRsi c setf rd shiftImm st rm) := by
  refine arm_row 29 (by decide) rfl ?_ ?_
  · change _ &&& 0x0FE00010#32 = 0x01A00000#32
    simp (disch := decide) [or_and, put_and]
  · change Instr.movRsi (Cond.ofBits (get _ 28 4)) (flagOf (get _ 20 1)) (regOf (get _ 12 4)) (get _ 7 5) (ShiftType.ofBits (get _ 5 2)) (regOf (get _ 0 4)) = _
    simp [get_or, get_put, get_put_ne, get_numeral]

theorem movRsr (c : Cond) (setf : Bool) (rn rd rs : Reg) (st : ShiftType) (rm : Reg) : Statement (.movRsr c setf rn rd rs st rm) := by
  refine arm_row 45 (by decide) rfl ?_ ?_
  · change _ &&& 0x0FE00090#32 = 0x01A00010#32
    simp (disch := decide) [or_and, put_and]
  · change Instr.movRsr (Cond.ofBits (get _ 28 4)) (flagOf (get _ 20 1)) (regOf (get _ 16 4)) (regOf (get _ 12 4)) (regOf (get _ 8 4)) (ShiftType.ofBits (get _ 5 2)) (regOf (get _ 0 4)) = _
    simp [get_or, get_put, get_put_ne, get_numeral]

theorem bicImm (c : Cond) (setf : Bool) (rn rd : Reg) (rot : BitVec 4) (imm8 : BitVec 8) : Statement (.bicImm c setf rn rd rot imm8) := by
  refine arm_row 14 (by decide) rfl ?_ ?_
  · change _ &&& 0x0FE00000#32 = 0x03C00000#32
    simp (disch := decide) [or_and, put_and]
  · change Instr.bicImm (Cond.ofBits (get _ 28 4)) (flagOf (get _ 20 1)) (regOf (get _ 16 4)) (regOf (get _ 12 4)) (get _ 8 4) (get _ 0 8) = _
    simp [get_or, get_put, get_put_ne, get_numeral]

theorem bicRsi (c : Cond) (setf : Bool) (rn rd : Reg) (shiftImm : BitVec 5) (st : ShiftType) (rm : Reg) : Statement (.bicRsi c setf rn rd shiftImm st rm) := by
  refine arm_row 30 (by decide) rfl ?_ ?_
  · change _ &&& 0x0FE00010#32 = 0x01C00000#32
    simp (disch := decide) [or_and, put_and]
  · change Instr.bicRsi (Cond.ofBits (get _ 28 4)) (flagOf (get _ 20 1)) (regOf (get _ 16 4)) (regOf (get _ 12 4)) (get _ 7 5) (ShiftType.ofBits (get _ 5 2)) (regOf (get _ 0 4)) = _
    simp [get_or, get_put, get_put_ne, get_numeral]

theorem bicRsr (c : Cond) (setf : Bool) (rn rd rs : Reg) (st : ShiftType) (rm : Reg) : Statement (.bicRsr c setf rn rd rs st rm) := by
  refine arm_row 46 (by decide) rfl ?_ ?_
  · change _ &&& 0x0FE00090#32 = 0x01C00010#32
    simp (disch := decide) [or_and, put_and]
  · change Instr.bicRsr (Cond.ofBits (get _ 28 4)) (flagOf (get _ 20 1)) (regOf (get _ 16 4)) (regOf (get _ 12 4)) (regOf (get _ 8 4)) (ShiftType.ofBits (get _ 5 2)) (regOf (get _ 0 4)) = _
    simp [get_or, get_put, get_put_ne, get_numeral]

theorem mvnImm (c : Cond) (setf : Bool) (rd : Reg) (rot : BitVec 4) (imm8 : BitVec 8) : Statement (.mvnImm c setf rd rot imm8) := by
  refine arm_row 15 (by decide) rfl ?_ ?_
  · change _ &&& 0x0FE00000#32 = 0x03E00000#32
    simp (disch := decide) [or_and, put_and]
  · change Instr.mvnImm (Cond.ofBits (get _ 28 4)) (flagOf (get _ 20 1)) (regOf (get _ 12 4)) (get _ 8 4) (get _ 0 8) = _
    simp [get_or, get_put, get_put_ne, get_numeral]

theorem mvnRsi (c : Cond) (setf : Bool) (rd : Reg) (shiftImm : BitVec 5) (st : ShiftType) (rm : Reg) : Statement (.mvnRsi c setf rd shiftImm st rm) := by
  refine arm_row 31 (by decide) rfl ?_ ?_
  · change _ &&& 0x0FE00010#32 = 0x01E00000#32
    simp (disch := decide) [or_and, put_and]
  · change Instr.mvnRsi (Cond.ofBits (get _ 28 4)) (flagOf (get _ 20 1)) (regOf (get _ 12 4)) (get _ 7 5) (ShiftType.ofBits (get _ 5 2)) (regOf (get _ 0 4)) = _
    simp [get_or, get_put, get_put_ne, get_numeral]

theorem mvnRsr (c : Cond) (setf : Bool) (rn rd rs : Reg) (st : ShiftType) (rm : Reg) : Statement (.mvnRsr c setf rn rd rs st rm) := by
  refine arm_row 47 (by decide) rfl ?_ ?_
  · change _ &&& 0x0FE00090#32 = 0x01E00010#32
    simp (disch := decide) [or_and, put_and]
  · change Instr.mvnRsr (Cond.ofBits (get _ 28 4)) (flagOf (get _ 20 1)) (regOf (get _ 16 4)) (regOf (get _ 12 4)) (regOf (get _ 8 4)) (ShiftType.ofBits (get _ 5 2)) (regOf (get _ 0 4)) = _
    simp [get_or, get_put, get_put_ne, get_numeral]

theorem b (c : Cond) (offset24 : BitVec 24) : Statement (.b c offset24) := by
  refine arm_row 48 (by decide) rfl ?_ ?_
  · change _ &&& 0x0F000000#32 = 0x0A000000#32
    simp (disch := decide) [or_and, put_and]
  · change Instr.b (Cond.ofBits (get _ 28 4)) (get _ 0 24) = _
    simp [get_or, get_put, get_put_ne, get_numeral]

theorem bl (c : Cond) (offset24 : BitVec 24) : Statement (.bl c offset24) := by
  refine arm_row 49 (by decide) rfl ?_ ?_
  · change _ &&& 0x0F000000#32 = 0x0B000000#32
    simp (disch := decide) [or_and, put_and]
  · change Instr.bl (Cond.ofBits (get _ 28 4)) (get _ 0 24) = _
    simp [get_or, get_put, get_put_ne, get_numeral]

theorem bx (c : Cond) (rm : Reg) : Statement (.bx c rm) := by
  refine arm_row 50 (by decide) rfl ?_ ?_
  · change _ &&& 0x0FF000F0#32 = 0x01200010#32
    simp (disch := decide) [or_and, put_and]
  · change Instr.bx (Cond.ofBits (get _ 28 4)) (regOf (get _ 0 4)) = _
    simp [get_or, get_put, get_put_ne, get_numeral]

theorem blxReg (c : Cond) (rm : Reg) : Statement (.blxReg c rm) := by
  refine arm_row 51 (by decide) rfl ?_ ?_
  · change _ &&& 0x0FF000F0#32 = 0x01200030#32
    simp (disch := decide) [or_and, put_and]
  · change Instr.blxReg (Cond.ofBits (get _ 28 4)) (regOf (get _ 0 4)) = _
    simp [get_or, get_put, get_put_ne, get_numeral]

theorem mul (c : Cond) (setf : Bool) (rd rs rm : Reg) : Statement (.mul c setf rd rs rm) := by
  refine arm_row 52 (by decide) rfl ?_ ?_
  · change _ &&& 0x0FE000F0#32 = 0x00000090#32
    simp (disch := decide) [or_and, put_and]
  · change Instr.mul (Cond.ofBits (get _ 28 4)) (flagOf (get _ 20 1)) (regOf (get _ 16 4)) (regOf (get _ 8 4)) (regOf (get _ 0 4)) = _
    simp [get_or, get_put, get_put_ne, get_numeral]

theorem mla (c : Cond) (setf : Bool) (rd rn rs rm : Reg) : Statement (.mla c setf rd rn rs rm) := by
  refine arm_row 53 (by decide) rfl ?_ ?_
  · change _ &&& 0x0FE000F0#32 = 0x00200090#32
    simp (disch := decide) [or_and, put_and]
  · change Instr.mla (Cond.ofBits (get _ 28 4)) (flagOf (get _ 20 1)) (regOf (get _ 16 4)) (regOf (get _ 12 4)) (regOf (get _ 8 4)) (regOf (get _ 0 4)) = _
    simp [get_or, get_put, get_put_ne, get_numeral]

theorem umull (c : Cond) (setf : Bool) (rdHi rdLo rs rm : Reg) : Statement (.umull c setf rdHi rdLo rs rm) := by
  refine arm_row 54 (by decide) rfl ?_ ?_
  · change _ &&& 0x0FE000F0#32 = 0x00800090#32
    simp (disch := decide) [or_and, put_and]
  · change Instr.umull (Cond.ofBits (get _ 28 4)) (flagOf (get _ 20 1)) (regOf (get _ 16 4)) (regOf (get _ 12 4)) (regOf (get _ 8 4)) (regOf (get _ 0 4)) = _
    simp [get_or, get_put, get_put_ne, get_numeral]

theorem umlal (c : Cond) (setf : Bool) (rdHi rdLo rs rm : Reg) : Statement (.umlal c setf rdHi rdLo rs rm) := by
  refine arm_row 55 (by decide) rfl ?_ ?_
  · change _ &&& 0x0FE000F0#32 = 0x00A00090#32
    simp (disch := decide) [or_and, put_and]
  · change Instr.umlal (Cond.ofBits (get _ 28 4)) (flagOf (get _ 20 1)) (regOf (get _ 16 4)) (regOf (get _ 12 4)) (regOf (get _ 8 4)) (regOf (get _ 0 4)) = _
    simp [get_or, get_put, get_put_ne, get_numeral]

theorem smull (c : Cond) (setf : Bool) (rdHi rdLo rs rm : Reg) : Statement (.smull c setf rdHi rdLo rs rm) := by
  refine arm_row 56 (by decide) rfl ?_ ?_
  · change _ &&& 0x0FE000F0#32 = 0x00C00090#32
    simp (disch := decide) [or_and, put_and]
  · change Instr.smull (Cond.ofBits (get _ 28 4)) (flagOf (get _ 20 1)) (regOf (get _ 16 4)) (regOf (get _ 12 4)) (regOf (get _ 8 4)) (regOf (get _ 0 4)) = _
    simp [get_or, get_put, get_put_ne, get_numeral]

theorem smlal (c : Cond) (setf : Bool) (rdHi rdLo rs rm : Reg) : Statement (.smlal c setf rdHi rdLo rs rm) := by
  refine arm_row 57 (by decide) rfl ?_ ?_
  · change _ &&& 0x0FE000F0#32 = 0x00E00090#32
    simp (disch := decide) [or_and, put_and]
  · change Instr.smlal (Cond.ofBits (get _ 28 4)) (flagOf (get _ 20 1)) (regOf (get _ 16 4)) (regOf (get _ 12 4)) (regOf (get _ 8 4)) (regOf (get _ 0 4)) = _
    simp [get_or, get_put, get_put_ne, get_numeral]

theorem umaal (c : Cond) (rdHi rdLo rs rm : Reg) : Statement (.umaal c rdHi rdLo rs rm) := by
  refine arm_row 58 (by decide) rfl ?_ ?_
  · change _ &&& 0x0FF000F0#32 = 0x00400090#32
    simp (disch := decide) [or_and, put_and]
  · change Instr.umaal (Cond.ofBits (get _ 28 4)) (regOf (get _ 16 4)) (regOf (get _ 12 4)) (regOf (get _ 8 4)) (regOf (get _ 0 4)) = _
    simp [get_or, get_put, get_put_ne, get_numeral]

theorem smlaxy (c : Cond) (rd rn rs : Reg) (y x : Bool) (rm : Reg) : Statement (.smlaxy c rd rn rs y x rm) := by
  refine arm_row 59 (by decide) rfl ?_ ?_
  · change _ &&& 0x0FF00090#32 = 0x01000080#32
    simp (disch := decide) [or_and, put_and]
  · change Instr.smlaxy (Cond.ofBits (get _ 28 4)) (regOf (get _ 16 4)) (regOf (get _ 12 4)) (regOf (get _ 8 4)) (flagOf (get _ 6 1)) (flagOf (get _ 5 1)) (regOf (get _ 0 4)) = _
    simp [get_or, get_put, get_put_ne, get_numeral]

theorem smlawy (c : Cond) (rd rn rs : Reg) (y : Bool) (rm : Reg) : Statement (.smlawy c rd rn rs y rm) := by
  refine arm_row 60 (by decide) rfl ?_ ?_
  · change _ &&& 0x0FF000B0#32 = 0x01200080#32
    simp (disch := decide) [or_and, put_and]
  · change Instr.smlawy (Cond.ofBits (get _ 28 4)) (regOf (get _ 16 4)) (regOf (get _ 12 4)) (regOf (get _ 8 4)) (flagOf (get _ 6 1)) (regOf (get _ 0 4)) = _
    simp [get_or, get_put, get_put_ne, get_numeral]

theorem smulwy (c : Cond) (rd rn rs : Reg) (y : Bool) (rm : Reg) : Statement (.smulwy c rd rn rs y rm) := by
  refine arm_row 61 (by decide) rfl ?_ ?_
  · change _ &&& 0x0FF000B0#32 = 0x012000A0#32
    simp (disch := decide) [or_and, put_and]
  · change Instr.smulwy (Cond.ofBits (get _ 28 4)) (regOf (get _ 16 4)) (regOf (get _ 12 4)) (regOf (get _ 8 4)) (flagOf (get _ 6 1)) (regOf (get _ 0 4)) = _
    simp [get_or, get_put, get_put_ne, get_numeral]

theorem smlalxy (c : Cond) (rdHi rdLo rs : Reg) (y x : Bool) (rm : Reg) : Statement (.smlalxy c rdHi rdLo rs y x rm) := by
  refine arm_row 62 (by decide) rfl ?_ ?_
  · change _ &&& 0x0FF00090#32 = 0x01400080#32
    simp (disch := decide) [or_and, put_and]
  · change Instr.smlalxy (Cond.ofBits (get _ 28 4)) (regOf (get _ 16 4)) (regOf (get _ 12 4)) (regOf (get _ 8 4)) (flagOf (get _ 6 1)) (flagOf (get _ 5 1)) (regOf (get _ 0 4)) = _
    simp [get_or, get_put, get_put_ne, get_numeral]

theorem smulxy (c : Cond) (rd rs : Reg) (y x : Bool) (rm : Reg) : Statement (.smulxy c rd rs y x rm) := by
  refine arm_row 63 (by decide) rfl ?_ ?_
  · change _ &&& 0x0FF00090#32 = 0x01600080#32
    simp (disch := decide) [or_and, put_and]
  · change Instr.smulxy (Cond.ofBits (get _ 28 4)) (regOf (get _ 16 4)) (regOf (get _ 8 4)) (flagOf (get _ 6 1)) (flagOf (get _ 5 1)) (regOf (get _ 0 4)) = _
    simp [get_or, get_put, get_put_ne, get_numeral]

theorem mrsCpsr (c : Cond) (rd : Reg) : Statement (.mrsCpsr c rd) := by
  refine arm_row 64 (by decide) rfl ?_ ?_
  · change _ &&& 0x0FF000F0#32 = 0x01000000#32
    simp (disch := decide) [or_and, put_and]
  · change Instr.mrsCpsr (Cond.ofBits (get _ 28 4)) (regOf (get _ 12 4)) = _
    simp [get_or, get_put, get_put_ne, get_numeral]

theorem mrsSpsr (c : Cond) (rd : Reg) : Statement (.mrsSpsr c rd) := by
  refine arm_row 65 (by decide) rfl ?_ ?_
  · change _ &&& 0x0FF000F0#32 = 0x01400000#32
    simp (disch := decide) [or_and, put_and]
  · change Instr.mrsSpsr (Cond.ofBits (get _ 28 4)) (regOf (get _ 12 4)) = _
    simp [get_or, get_put, get_put_ne, get_numeral]

theorem msrRegCpsr (c : Cond) (mask : BitVec 4) (rm : Reg) : Statement (.msrRegCpsr c mask rm) := by
  refine arm_row 66 (by decide) rfl ?_ ?_
  · change _ &&& 0x0FF000F0#32 = 0x01200000#32
    simp (disch := decide) [or_and, put_and]
  · change Instr.msrRegCpsr (Cond.ofBits (get _ 28 4)) (get _ 16 4) (regOf (get _ 0 4)) = _
    simp [get_or, get_put, get_put_ne, get_numeral]

theorem msrRegSpsr (c : Cond) (mask : BitVec 4) (rm : Reg) : Statement (.msrRegSpsr c mask rm) := by
  refine arm_row 67 (by decide) rfl ?_ ?_
  · change _ &&& 0x0FF000F0#32 = 0x01600000#32
    simp (disch := decide) [or_and, put_and]
  · change Instr.msrRegSpsr (Cond.ofBits (get _ 28 4)) (get _ 16 4) (regOf (get _ 0 4)) = _
    simp [get_or, get_put, get_put_ne, get_numeral]

theorem msrImmCpsr (c : Cond) (mask rot : BitVec 4) (imm8 : BitVec 8) : Statement (.msrImmCpsr c mask rot imm8) := by
  refine arm_row 68 (by decide) rfl ?_ ?_
  · change _ &&& 0x0FF00000#32 = 0x03200000#32
    simp (disch := decide) [or_and, put_and]
  · change Instr.msrImmCpsr (Cond.ofBits (get _ 28 4)) (get _ 16 4) (get _ 8 4) (get _ 0 8) = _
    simp [get_or, get_put, get_put_ne, get_numeral]

theorem msrImmSpsr (c : Cond) (mask rot : BitVec 4) (imm8 : BitVec 8) : Statement (.msrImmSpsr c mask rot imm8) := by
  refine arm_row 69 (by decide) rfl ?_ ?_
  · change _ &&& 0x0FF00000#32 = 0x03600000#32
    simp (disch := decide) [or_and, put_and]
  · change Instr.msrImmSpsr (Cond.ofBits (get _ 28 4)) (get _ 16 4) (get _ 8 4) (get _ 0 8) = _
    simp [get_or, get_put, get_put_ne, get_numeral]

theorem swp (c : Cond) (rn rd rm : Reg) : Statement (.swp c rn rd rm) := by
  refine arm_row 70 (by decide) rfl ?_ ?_
  · change _ &&& 0x0FF000F0#32 = 0x01000090#32
    simp (disch := decide) [or_and, put_and]
  · change Instr.swp (Cond.ofBits (get _ 28 4)) (regOf (get _ 16 4)) (regOf (get _ 12 4)) (regOf (get _ 0 4)) = _
    simp [get_or, get_put, get_put_ne, get_numeral]

theorem swpb (c : Cond) (rn rd rm : Reg) : Statement (.swpb c rn rd rm) := by
  refine arm_row 71 (by decide) rfl ?_ ?_
  · change _ &&& 0x0FF000F0#32 = 0x01400090#32
    simp (disch := decide) [or_and, put_and]
  · change Instr.swpb (Cond.ofBits (get _ 28 4)) (regOf (get _ 16 4)) (regOf (get _ 12 4)) (regOf (get _ 0 4)) = _
    simp [get_or, get_put, get_put_ne, get_numeral]

theorem ldrImmPre (c : Cond) (u w : Bool) (rn rd : Reg) (imm12 : BitVec 12) : Statement (.ldrImmPre c u w rn rd imm12) := by
  refine arm_row 72 (by decide) rfl ?_ ?_
  · change _ &&& 0x0F500000#32 = 0x05100000#32
    simp (disch := decide) [or_and, put_and]
  · change Instr.ldrImmPre (Cond.ofBits (get _ 28 4)) (flagOf (get _ 23 1)) (flagOf (get _ 21 1)) (regOf (get _ 16 4)) (regOf (get _ 12 4)) (get _ 0 12) = _
    simp [get_or, get_put, get_put_ne, get_numeral]

theorem ldrRegPre (c : Cond) (u w : Bool) (rn rd : Reg) (shiftImm : BitVec 5) (st : ShiftType) (rm : Reg) : Statement (.ldrRegPre c u w rn rd shiftImm st rm) := by
  refine arm_row 73 (by decide) rfl ?_ ?_
  · change _ &&& 0x0F500010#32 = 0x07100000#32
    simp (disch := decide) [or_and, put_and]
  · change Instr.ldrRegPre (Cond.ofBits (get _ 28 4)) (flagOf (get _ 23 1)) (flagOf (get _ 21 1)) (regOf (get _ 16 4)) (regOf (get _ 12 4)) (get _ 7 5) (ShiftType.ofBits (get _ 5 2)) (regOf (get _ 0 4)) = _
    simp [get_or, get_put, get_put_ne, get_numeral]

theorem ldrImmPost (c : Cond) (u : Bool) (rn rd : Reg) (imm12 : BitVec 12) : Statement (.ldrImmPost c u rn rd imm12) := by
  refine arm_row 74 (by decide) rfl ?_ ?_
  · change _ &&& 0x0F700000#32 = 0x04100000#32
    simp (disch := decide) [or_and, put_and]
  · change Instr.ldrImmPost (Cond.ofBits (get _ 28 4)) (flagOf (get _ 23 1)) (regOf (get _ 16 4)) (regOf (get _ 12 4)) (get _ 0 12) = _
    simp [get_or, get_put, get_put_ne, get_numeral]

theorem ldrRegPost (c : Cond) (u : Bool) (rn rd : Reg) (shiftImm : BitVec 5) (st : ShiftType) (rm : Reg) : Statement (.ldrRegPost c u rn rd shiftImm st rm) := by
  refine arm_row 75 (by decide) rfl ?_ ?_
  · change _ &&& 0x0F700010#32 = 0x06100000#32
    simp (disch := decide) [or_and, put_and]
  · change Instr.ldrRegPost (Cond.ofBits (get _ 28 4)) (flagOf (get _ 23 1)) (regOf (get _ 16 4)) (regOf (get _ 12 4)) (get _ 7 5) (ShiftType.ofBits (get _ 5 2)) (regOf (get _ 0 4)) = _
    simp [get_or, get_put, get_put_ne, get_numeral]

theorem ldrtImm (c : Cond) (u : Bool) (rn rd : Reg) (imm12 : BitVec 12) : Statement (.ldrtImm c u rn rd imm12) := by
  refine arm_row 76 (by decide) rfl ?_ ?_
  · change _ &&& 0x0F700000#32 = 0x04300000#32
    simp (disch := decide) [or_and, put_and]
  · change Instr.ldrtImm (Cond.ofBits (get _ 28 4)) (flagOf (get _ 23 1)) (regOf (get _ 16 4)) (regOf (get _ 12 4)) (get _ 0 12) = _
    simp [get_or, get_put, get_put_ne, get_numeral]

theorem ldrtReg (c : Cond) (u : Bool) (rn rd : Reg) (shiftImm : BitVec 5) (st : ShiftType) (rm : Reg) : Statement (.ldrtReg c u rn rd shiftImm st rm) := by
  refine arm_row 77 (by decide) rfl ?_ ?_
  · change _ &&& 0x0F700010#32 = 0x06300000#32
    simp (disch := decide) [or_and, put_and]
  · change Instr.ldrtReg (Cond.ofBits (get _ 28 4)) (flagOf (get _ 23 1)) (regOf (get _ 16 4)) (regOf (get _ 12 4)) (get _ 7 5) (ShiftType.ofBits (get _ 5 2)) (regOf (get _ 0 4)) = _
    simp [get_or, get_put, get_put_ne, get_numeral]

theorem strImmPre (c : Cond) (u w : Bool) (rn rd : Reg) (imm12 : BitVec 12) : Statement (.strImmPre c u w rn rd imm12) := by
  refine arm_row 78 (by decide) rfl ?_ ?_
  · change _ &&& 0x0F500000#32 = 0x05000000#32
    simp (disch := decide) [or_and, put_and]
  · change Instr.strImmPre (Cond.ofBits (get _ 28 4)) (flagOf (get _ 23 1)) (flagOf (get _ 21 1)) (regOf (get _ 16 4)) (regOf (get _ 12 4)) (get _ 0 12) = _
    simp [get_or, get_put, get_put_ne, get_numeral]

theorem strRegPre (c : Cond) (u w : Bool) (rn rd : Reg) (shiftImm : BitVec 5) (st : ShiftType) (rm : Reg) : Statement (.strRegPre c u w rn rd shiftImm st rm) := by
  refine arm_row 79 (by decide) rfl ?_ ?_
  · change _ &&& 0x0F500010#32 = 0x07000000#32
    simp (disch := decide) [or_and, put_and]
  · change Instr.strRegPre (Cond.ofBits (get _ 28 4)) (flagOf (get _ 23 1)) (flagOf (get _ 21 1)) (regOf (get _ 16 4)) (regOf (get _ 12 4)) (get _ 7 5) (ShiftType.ofBits (get _ 5 2)) (regOf (get _ 0 4)) = _
    simp [get_or, get_put, get_put_ne, get_numeral]

theorem strImmPost (c : Cond) (u : Bool) (rn rd : Reg) (imm12 : BitVec 12) : Statement (.strImmPost c u rn rd imm12) := by
  refine arm_row 80 (by decide) rfl ?_ ?_
  · change _ &&& 0x0F700000#32 = 0x04000000#32
    simp (disch := decide) [or_and, put_and]
  · change Instr.strImmPost (Cond.ofBits (get _ 28 4)) (flagOf (get _ 23 1)) (regOf (get _ 16 4)) (regOf (get _ 12 4)) (get _ 0 12) = _
    simp [get_or, get_put, get_put_ne, get_numeral]

theorem strRegPost (c : Cond) (u : Bool) (rn rd : Reg) (shiftImm : BitVec 5) (st : ShiftType) (rm : Reg) : Statement (.strRegPost c u rn rd shiftImm st rm) := by
  refine arm_row 81 (by decide) rfl ?_ ?_
  · change _ &&& 0x0F700010#32 = 0x06000000#32
    simp (disch := decide) [or_and, put_and]
  · change Instr.strRegPost (Cond.ofBits (get _ 28 4)) (flagOf (get _ 23 1)) (regOf (get _ 16 4)) (regOf (get _ 12 4)) (get _ 7 5) (ShiftType.ofBits (get _ 5 2)) (regOf (get _ 0 4)) = _
    simp [get_or, get_put, get_put_ne, get_numeral]

theorem strtImm (c : Cond) (u : Bool) (rn rd : Reg) (imm12 : BitVec 12) : Statement (.strtImm c u rn rd imm12) := by
  refine arm_row 82 (by decide) rfl ?_ ?_
  · change _ &&& 0x0F700000#32 = 0x04200000#32
    simp (disch := decide) [or_and, put_and]
  · change Instr.strtImm (Cond.ofBits (get _ 28 4)) (flagOf (get _ 23 1)) (regOf (get _ 16 4)) (regOf (get _ 12 4)) (get _ 0 12) = _
    simp [get_or, get_put, get_put_ne, get_numeral]

theorem strtReg (c : Cond) (u : Bool) (rn rd : Reg) (shiftImm : BitVec 5) (st : ShiftType) (rm : Reg) : Statement (.strtReg c u rn rd shiftImm st rm) := by
  refine arm_row 83 (by decide) rfl ?_ ?_
  · change _ &&& 0x0F700010#32 = 0x06200000#32
    simp (disch := decide) [or_and, put_and]
  · change Instr.strtReg (Cond.ofBits (get _ 28 4)) (flagOf (get _ 23 1)) (regOf (get _ 16 4)) (regOf (get _ 12 4)) (get _ 7 5) (ShiftType.ofBits (get _ 5 2)) (regOf (get _ 0 4)) = _
    simp [get_or, get_put, get_put_ne, get_numeral]

theorem ldrbImmPre (c : Cond) (u w : Bool) (rn rd : Reg) (imm12 : BitVec 12) : Statement (.ldrbImmPre c u w rn rd imm12) := by
  refine arm_row 84 (by decide) rfl ?_ ?_
  · change _ &&& 0x0F500000#32 = 0x05500000#32
    simp (disch := decide) [or_and, put_and]
  · change Instr.ldrbImmPre (Cond.ofBits (get _ 28 4)) (flagOf (get _ 23 1)) (flagOf (get _ 21 1)) (regOf (get _ 16 4)) (regOf (get _ 12 4)) (get _ 0 12) = _
    simp [get_or, get_put, get_put_ne, get_numeral]

theorem ldrbRegPre (c : Cond) (u w : Bool) (rn rd : Reg) (shiftImm : BitVec 5) (st : ShiftType) (rm : Reg) : Statement (.ldrbRegPre c u w rn rd shiftImm st rm) := by
  refine arm_row 85 (by decide) rfl ?_ ?_
  · change _ &&& 0x0F500010#32 = 0x07500000#32
    simp (disch := decide) [or_and, put_and]
  · change Instr.ldrbRegPre (Cond.ofBits (get _ 28 4)) (flagOf (get _ 23 1)) (flagOf (get _ 21 1)) (regOf (get _ 16 4)) (regOf (get _ 12 4)) (get _ 7 5) (ShiftType.ofBits (get _ 5 2)) (regOf (get _ 0 4)) = _
    simp [get_or, get_put, get_put_ne, get_numeral]

theorem ldrbImmPost (c : Cond) (u : Bool) (rn rd : Reg) (imm12 : BitVec 12) : Statement (.ldrbImmPost c u rn rd imm12) := by
  refine arm_row 86 (by decide) rfl ?_ ?_
  · change _ &&& 0x0F700000#32 = 0x04500000#32
    simp (disch := decide) [or_and, put_and]
  · change Instr.ldrbImmPost (Cond.ofBits (get _ 28 4)) (flagOf (get _ 23 1)) (regOf (get _ 16 4)) (regOf (get _ 12 4)) (get _ 0 12) = _
    simp [get_or, get_put, get_put_ne, get_numeral]

theorem ldrbRegPost (c : Cond) (u : Bool) (rn rd : Reg) (shiftImm : BitVec 5) (st : ShiftType) (rm : Reg) : Statement (.ldrbRegPost c u rn rd shiftImm st rm) := by
  refine arm_row 87 (by decide) rfl ?_ ?_
  · change _ &&& 0x0F700010#32 = 0x06500000#32
    simp (disch := decide) [or_and, put_and]
  · change Instr.ldrbRegPost (Cond.ofBits (get _ 28 4)) (flagOf (get _ 23 1)) (regOf (get _ 16 4)) (regOf (get _ 12 4)) (get _ 7 5) (ShiftType.ofBits (get _ 5 2)) (regOf (get _ 0 4)) = _
    simp [get_or, get_put, get_put_ne, get_numeral]

theorem ldrbtImm (c : Cond) (u : Bool) (rn rd : Reg) (imm12 : BitVec 12) : Statement (.ldrbtImm c u rn rd imm12) := by
  refine arm_row 88 (by decide) rfl ?_ ?_
  · change _ &&& 0x0F700000#32 = 0x04700000#32
    simp (disch := decide) [or_and, put_and]
  · change Instr.ldrbtImm (Cond.ofBits (get _ 28 4)) (flagOf (get _ 23 1)) (regOf (get _ 16 4)) (regOf (get _ 12 4)) (get _ 0 12) = _
    simp [get_or, get_put, get_put_ne, get_numeral]

theorem ldrbtReg (c : Cond) (u : Bool) (rn rd : Reg) (shiftImm : BitVec 5) (st : ShiftType) (rm : Reg) : Statement (.ldrbtReg c u rn rd shiftImm st rm) := by
  refine arm_row 89 (by decide) rfl ?_ ?_
  · change _ &&& 0x0F700010#32 = 0x06700000#32
    simp (disch := decide) [or_and, put_and]
  · change Instr.ldrbtReg (Cond.ofBits (get _ 28 4)) (flagOf (get _ 23 1)) (regOf (get _ 16 4)) (regOf (get _ 12 4)) (get _ 7 5) (ShiftType.ofBits (get _ 5 2)) (regOf (get _ 0 4)) = _
    simp [get_or, get_put, get_put_ne, get_numeral]

theorem strbImmPre (c : Cond) (u w : Bool) (rn rd : Reg) (imm12 : BitVec 12) : Statement (.strbImmPre c u w rn rd imm12) := by
  refine arm_row 90 (by decide) rfl ?_ ?_
  · change _ &&& 0x0F500000#32 = 0x05400000#32
    simp (disch := decide) [or_and, put_and]
  · change Instr.strbImmPre (Cond.ofBits (get _ 28 4)) (flagOf (get _ 23 1)) (flagOf (get _ 21 1)) (regOf (get _ 16 4)) (regOf (get _ 12 4)) (get _ 0 12) = _
    simp [get_or, get_put, get_put_ne, get_numeral]

theorem strbRegPre (c : Cond) (u w : Bool) (rn rd : Reg) (shiftImm : BitVec 5) (st : ShiftType) (rm : Reg) : Statement (.strbRegPre c u w rn rd shiftImm st rm) := by
  refine arm_row 91 (by decide) rfl ?_ ?_
  · change _ &&& 0x0F500010#32 = 0x07400000#32
    simp (disch := decide) [or_and, put_and]
  · change Instr.strbRegPre (Cond.ofBits (get _ 28 4)) (flagOf (get _ 23 1)) (flagOf (get _ 21 1)) (regOf (get _ 16 4)) (regOf (get _ 12 4)) (get _ 7 5) (ShiftType.ofBits (get _ 5 2)) (regOf (get _ 0 4)) = _
    simp [get_or, get_put, get_put_ne, get_numeral]

theorem strbImmPost (c : Cond) (u : Bool) (rn rd : Reg) (imm12 : BitVec 12) : Statement (.strbImmPost c u rn rd imm12) := by
  refine arm_row 92 (by decide) rfl ?_ ?_
  · change _ &&& 0x0F700000#32 = 0x04400000#32
    simp (disch := decide) [or_and, put_and]
  · change Instr.strbImmPost (Cond.ofBits (get _ 28 4)) (flagOf (get _ 23 1)) (regOf (get _ 16 4)) (regOf (get _ 12 4)) (get _ 0 12) = _
    simp [get_or, get_put, get_put_ne, get_numeral]

theorem strbRegPost (c : Cond) (u : Bool) (rn rd : Reg) (shiftImm : BitVec 5) (st : ShiftType) (rm : Reg) : Statement (.strbRegPost c u rn rd shiftImm st rm) := by
  refine arm_row 93 (by decide) rfl ?_ ?_
  · change _ &&& 0x0F700010#32 = 0x06400000#32
    simp (disch := decide) [or_and, put_and]
  · change Instr.strbRegPost (Cond.ofBits (get _ 28 4)) (flagOf (get _ 23 1)) (regOf (get _ 16 4)) (regOf (get _ 12 4)) (get _ 7 5) (ShiftType.ofBits (get _ 5 2)) (regOf (get _ 0 4)) = _
    simp [get_or, get_put, get_put_ne, get_numeral]

theorem strbtImm (c : Cond) (u : Bool) (rn rd : Reg) (imm12 : BitVec 12) : Statement (.strbtImm c u rn rd imm12) := by
  refine arm_row 94 (by decide) rfl ?_ ?_
  · change _ &&& 0x0F700000#32 = 0x04600000#32
    simp (disch := decide) [or_and, put_and]
  · change Instr.strbtImm (Cond.ofBits (get _ 28 4)) (flagOf (get _ 23 1)) (regOf (get _ 16 4)) (regOf (get _ 12 4)) (get _ 0 12) = _
    simp [get_or, get_put, get_put_ne, get_numeral]

theorem strbtReg (c : Cond) (u : Bool) (rn rd : Reg) (shiftImm : BitVec 5) (st : ShiftType) (rm : Reg) : Statement (.strbtReg c u rn rd shiftImm st rm) := by
  refine arm_row 95 (by decide) rfl ?_ ?_
  · change _ &&& 0x0F700010#32 = 0x06600000#32
    simp (disch := decide) [or_and, put_and]
  · change Instr.strbtReg (Cond.ofBits (get _ 28 4)) (flagOf (get _ 23 1)) (regOf (get _ 16 4)) (regOf (get _ 12 4)) (get _ 7 5) (ShiftType.ofBits (get _ 5 2)) (regOf (get _ 0 4)) = _
    simp [get_or, get_put, get_put_ne, get_numeral]

theorem strhImm (c : Cond) (p u w : Bool) (rn rd : Reg) (immHi immLo : BitVec 4) : Statement (.strhImm c p u w rn rd immHi immLo) := by
  refine arm_row 96 (by decide) rfl ?_ ?_
  · change _ &&& 0x0E5000F0#32 = 0x004000B0#32
    simp (disch := decide) [or_and, put_and]
  · change Instr.strhImm (Cond.ofBits (get _ 28 4)) (flagOf (get _ 24 1)) (flagOf (get _ 23 1)) (flagOf (get _ 21 1)) (regOf (get _ 16 4)) (regOf (get _ 12 4)) (get _ 8 4) (get _ 0 4) = _
    simp [get_or, get_put, get_put_ne, get_numeral]

theorem strhReg (c : Cond) (p u w : Bool) (rn rd rm : Reg) : Statement (.strhReg c p u w rn rd rm) := by
  refine arm_row 97 (by decide) rfl ?_ ?_
  · change _ &&& 0x0E5000F0#32 = 0x000000B0#32
    simp (disch := decide) [or_and, put_and]
  · change Instr.strhReg (Cond.ofBits (get _ 28 4)) (flagOf (get _ 24 1)) (flagOf (get _ 23 1)) (flagOf (get _ 21 1)) (regOf (get _ 16 4)) (regOf (get _ 12 4)) (regOf (get _ 0 4)) = _
    simp [get_or, get_put, get_put_ne, get_numeral]

theorem ldrhImm (c : Cond) (p u w : Bool) (rn rd : Reg) (immHi immLo : BitVec 4) : Statement (.ldrhImm c p u w rn rd immHi immLo) := by
  refine arm_row 98 (by decide) rfl ?_ ?_
  · change _ &&& 0x0E5000F0#32 = 0x005000B0#32
    simp (disch := decide) [or_and, put_and]
  · change Instr.ldrhImm (Cond.ofBits (get _ 28 4)) (flagOf (get _ 24 1)) (flagOf (get _ 23 1)) (flagOf (get _ 21 1)) (regOf (get _ 16 4)) (regOf (get _ 12 4)) (get _ 8 4) (get _ 0 4) = _
    simp [get_or, get_put, get_put_ne, get_numeral]

theorem ldrhReg (c : Cond) (p u w : Bool) (rn rd rm : Reg) : Statement (.ldrhReg c p u w rn rd rm) := by
  refine arm_row 99 (by decide) rfl ?_ ?_
  · change _ &&& 0x0E5000F0#32 = 0x001000B0#32
    simp (disch := decide) [or_and, put_and]
  · change Instr.ldrhReg (Cond.ofBits (get _ 28 4)) (flagOf (get _ 24 1)) (flagOf (get _ 23 1)) (flagOf (get _ 21 1)) (regOf (get _ 16 4)) (regOf (get _ 12 4)) (regOf (get _ 0 4)) = _
    simp [get_or, get_put, get_put_ne, get_numeral]

theorem ldrsbImm (c : Cond) (p u w : Bool) (rn rd : Reg) (immHi immLo : BitVec 4) : Statement (.ldrsbImm c p u w rn rd immHi immLo) := by
  refine arm_row 100 (by decide) rfl ?_ ?_
  · change _ &&& 0x0E5000F0#32 = 0x005000D0#32
    simp (disch := decide) [or_and, put_and]
  · change Instr.ldrsbImm (Cond.ofBits (get _ 28 4)) (flagOf (get _ 24 1)) (flagOf (get _ 23 1)) (flagOf (get _ 21 1)) (regOf (get _ 16 4)) (regOf (get _ 12 4)) (get _ 8 4) (get _ 0 4) = _
    simp [get_or, get_put, get_put_ne, get_numeral]

theorem ldrsbReg (c : Cond) (p u w : Bool) (rn rd rm : Reg) : Statement (.ldrsbReg c p u w rn rd rm) := by
  refine arm_row 101 (by decide) rfl ?_ ?_
  · change _ &&& 0x0E5000F0#32 = 0x001000D0#32
    simp (disch := decide) [or_and, put_and]
  · change Instr.ldrsbReg (Cond.ofBits (get _ 28 4)) (flagOf (get _ 24 1)) (flagOf (get _ 23 1)) (flagOf (get _ 21 1)) (regOf (get _ 16 4)) (regOf (get _ 12 4)) (regOf (get _ 0 4)) = _
    simp [get_or, get_put, get_put_ne, get_numeral]

theorem ldrshImm (c : Cond) (p u w : Bool) (rn rd : Reg) (immHi immLo : BitVec 4) : Statement (.ldrshImm c p u w rn rd immHi immLo) := by
  refine arm_row 102 (by decide) rfl ?_ ?_
  · change _ &&& 0x0E5000F0#32 = 0x005000F0#32
    simp (disch := decide) [or_and, put_and]
  · change Instr.ldrshImm (Cond.ofBits (get _ 28 4)) (flagOf (get _ 24 1)) (flagOf (get _ 23 1)) (flagOf (get _ 21 1)) (regOf (get _ 16 4)) (regOf (get _ 12 4)) (get _ 8 4) (get _ 0 4) = _
    simp [get_or, get_put, get_put_ne, get_numeral]

theorem ldrshReg (c : Cond) (p u w : Bool) (rn rd rm : Reg) : Statement (.ldrshReg c p u w rn rd rm) := by
  refine arm_row 103 (by decide) rfl ?_ ?_
  · change _ &&& 0x0E5000F0#32 = 0x001000F0#32
    simp (disch := decide) [or_and, put_and]
  · change Instr.ldrshReg (Cond.ofBits (get _ 28 4)) (flagOf (get _ 24 1)) (flagOf (get _ 23 1)) (flagOf (get _ 21 1)) (regOf (get _ 16 4)) (regOf (get _ 12 4)) (regOf (get _ 0 4)) = _
    simp [get_or, get_put, get_put_ne, get_numeral]

theorem stmia (c : Cond) (w : Bool) (rn : Reg) (list : BitVec 16) : Statement (.stmia c w rn list) := by
  refine arm_row 104 (by decide) rfl ?_ ?_
  · change _ &&& 0x0FD00000#32 = 0x08800000#32
    simp (disch := decide) [or_and, put_and]
  · change Instr.stmia (Cond.ofBits (get _ 28 4)) (flagOf (get _ 21 1)) (regOf (get _ 16 4)) (get _ 0 16) = _
    simp [get_or, get_put, get_put_ne, get_numeral]

theorem stmib (c : Cond) (w : Bool) (rn : Reg) (list : BitVec 16) : Statement (.stmib c w rn list) := by
  refine arm_row 105 (by decide) rfl ?_ ?_
  · change _ &&& 0x0FD00000#32 = 0x09800000#32
    simp (disch := decide) [or_and, put_and]
  · change Instr.stmib (Cond.ofBits (get _ 28 4)) (flagOf (get _ 21 1)) (regOf (get _ 16 4)) (get _ 0 16) = _
    simp [get_or, get_put, get_put_ne, get_numeral]

theorem stmda (c : Cond) (w : Bool) (rn : Reg) (list : BitVec 16) : Statement (.stmda c w rn list) := by
  refine arm_row 106 (by decide) rfl ?_ ?_
  · change _ &&& 0x0FD00000#32 = 0x08000000#32
    simp (disch := decide) [or_and, put_and]
  · change Instr.stmda (Cond.ofBits (get _ 28 4)) (flagOf (get _ 21 1)) (regOf (get _ 16 4)) (get _ 0 16) = _
    simp [get_or, get_put, get_put_ne, get_numeral]

theorem stmdb (c : Cond) (w : Bool) (rn : Reg) (list : BitVec 16) : Statement (.stmdb c w rn list) := by
  refine arm_row 107 (by decide) rfl ?_ ?_
  · change _ &&& 0x0FD00000#32 = 0x09000000#32
    simp (disch := decide) [or_and, put_and]
  · change Instr.stmdb (Cond.ofBits (get _ 28 4)) (flagOf (get _ 21 1)) (regOf (get _ 16 4)) (get _ 0 16) = _
    simp [get_or, get_put, get_put_ne, get_numeral]

theorem ldmia (c : Cond) (w : Bool) (rn : Reg) (list : BitVec 16) : Statement (.ldmia c w rn list) := by
  refine arm_row 108 (by decide) rfl ?_ ?_
  · change _ &&& 0x0FD00000#32 = 0x08900000#32
    simp (disch := decide) [or_and, put_and]
  · change Instr.ldmia (Cond.ofBits (get _ 28 4)) (flagOf (get _ 21 1)) (regOf (get _ 16 4)) (get _ 0 16) = _
    simp [get_or, get_put, get_put_ne, get_numeral]

theorem ldmib (c : Cond) (w : Bool) (rn : Reg) (list : BitVec 16) : Statement (.ldmib c w rn list) := by
  refine arm_row 109 (by decide) rfl ?_ ?_
  · change _ &&& 0x0FD00000#32 = 0x09900000#32
    simp (disch := decide) [or_and, put_and]
  · change Instr.ldmib (Cond.ofBits (get _ 28 4)) (flagOf (get _ 21 1)) (regOf (get _ 16 4)) (get _ 0 16) = _
    simp [get_or, get_put, get_put_ne, get_numeral]

theorem ldmda (c : Cond) (w : Bool) (rn : Reg) (list : BitVec 16) : Statement (.ldmda c w rn list) := by
  refine arm_row 110 (by decide) rfl ?_ ?_
  · change _ &&& 0x0FD00000#32 = 0x08100000#32
    simp (disch := decide) [or_and, put_and]
  · change Instr.ldmda (Cond.ofBits (get _ 28 4)) (flagOf (get _ 21 1)) (regOf (get _ 16 4)) (get _ 0 16) = _
    simp [get_or, get_put, get_put_ne, get_numeral]

theorem ldmdb (c : Cond) (w : Bool) (rn : Reg) (list : BitVec 16) : Statement (.ldmdb c w rn list) := by
  refine arm_row 111 (by decide) rfl ?_ ?_
  · change _ &&& 0x0FD00000#32 = 0x09100000#32
    simp (disch := decide) [or_and, put_and]
  · change Instr.ldmdb (Cond.ofBits (get _ 28 4)) (flagOf (get _ 21 1)) (regOf (get _ 16 4)) (get _ 0 16) = _
    simp [get_or, get_put, get_put_ne, get_numeral]

theorem stmiaUsr (c : Cond) (w : Bool) (rn : Reg) (list : BitVec 16) : Statement (.stmiaUsr c w rn list) := by
  refine arm_row 112 (by decide) rfl ?_ ?_
  · change _ &&& 0x0FD00000#32 = 0x08C00000#32
    simp (disch := decide) [or_and, put_and]
  · change Instr.stmiaUsr (Cond.ofBits (get _ 28 4)) (flagOf (get _ 21 1)) (regOf (get _ 16 4)) (get _ 0 16) = _
    simp [get_or, get_put, get_put_ne, get_numeral]

theorem stmibUsr (c : Cond) (w : Bool) (rn : Reg) (list : BitVec 16) : Statement (.stmibUsr c w rn list) := by
  refine arm_row 113 (by decide) rfl ?_ ?_
  · change _ &&& 0x0FD00000#32 = 0x09C00000#32
    simp (disch := decide) [or_and, put_and]
  · change Instr.stmibUsr (Cond.ofBits (get _ 28 4)) (flagOf (get _ 21 1)) (regOf (get _ 16 4)) (get _ 0 16) = _
    simp [get_or, get_put, get_put_ne, get_numeral]

theorem stmdaUsr (c : Cond) (w : Bool) (rn : Reg) (list : BitVec 16) : Statement (.stmdaUsr c w rn list) := by
  refine arm_row 114 (by decide) rfl ?_ ?_
  · change _ &&& 0x0FD00000#32 = 0x08400000#32
    simp (disch := decide) [or_and, put_and]
  · change Instr.stmdaUsr (Cond.ofBits (get _ 28 4)) (flagOf (get _ 21 1)) (regOf (get _ 16 4)) (get _ 0 16) = _
    simp [get_or, get_put, get_put_ne, get_numeral]

theorem stmdbUsr (c : Cond) (w : Bool) (rn : Reg) (list : BitVec 16) : Statement (.stmdbUsr c w rn list) := by
  refine arm_row 115 (by decide) rfl ?_ ?_
  · change _ &&& 0x0FD00000#32 = 0x09400000#32
    simp (disch := decide) [or_and, put_and]
  · change Instr.stmdbUsr (Cond.ofBits (get _ 28 4)) (flagOf (get _ 21 1)) (regOf (get _ 16 4)) (get _ 0 16) = _
    simp [get_or, get_put, get_put_ne, get_numeral]

theorem ldmiaRst (c : Cond) (w : Bool) (rn : Reg) (list : BitVec 16) : Statement (.ldmiaRst c w rn list) := by
  refine arm_row 116 (by decide) rfl ?_ ?_
  · change _ &&& 0x0FD00000#32 = 0x08D00000#32
    simp (disch := decide) [or_and, put_and]
  · change Instr.ldmiaRst (Cond.ofBits (get _ 28 4)) (flagOf (get _ 21 1)) (regOf (get _ 16 4)) (get _ 0 16) = _
    simp [get_or, get_put, get_put_ne, get_numeral]

theorem ldmibRst (c : Cond) (w : Bool) (rn : Reg) (list : BitVec 16) : Statement (.ldmibRst c w rn list) := by
  refine arm_row 117 (by decide) rfl ?_ ?_
  · change _ &&& 0x0FD00000#32 = 0x09D00000#32
    simp (disch := decide) [or_and, put_and]
  · change Instr.ldmibRst (Cond.ofBits (get _ 28 4)) (flagOf (get _ 21 1)) (regOf (get _ 16 4)) (get _ 0 16) = _
    simp [get_or, get_put, get_put_ne, get_numeral]

theorem ldmdaRst (c : Cond) (w : Bool) (rn : Reg) (list : BitVec 16) : Statement (.ldmdaRst c w rn list) := by
  refine arm_row 118 (by decide) rfl ?_ ?_
  · change _ &&& 0x0FD00000#32 = 0x08500000#32
    simp (disch := decide) [or_and, put_and]
  · change Instr.ldmdaRst (Cond.ofBits (get _ 28 4)) (flagOf (get _ 21 1)) (regOf (get _ 16 4)) (get _ 0 16) = _
    simp [get_or, get_put, get_put_ne, get_numeral]

theorem ldmdbRst (c : Cond) (w : Bool) (rn : Reg) (list : BitVec 16) : Statement (.ldmdbRst c w rn list) := by
  refine arm_row 119 (by decide) rfl ?_ ?_
  · change _ &&& 0x0FD00000#32 = 0x09500000#32
    simp (disch := decide) [or_and, put_and]
  · change Instr.ldmdbRst (Cond.ofBits (get _ 28 4)) (flagOf (get _ 21 1)) (regOf (get _ 16 4)) (get _ 0 16) = _
    simp [get_or, get_put, get_put_ne, get_numeral]

theorem swi (c : Cond) (comment : BitVec 24) : Statement (.swi c comment) := by
  refine arm_row 120 (by decide) rfl ?_ ?_
  · change _ &&& 0x0F000000#32 = 0x0F000000#32
    simp (disch := decide) [or_and, put_and]
  · change Instr.swi (Cond.ofBits (get _ 28 4)) (get _ 0 24) = _
    simp [get_or, get_put, get_put_ne, get_numeral]

theorem lslImmT (offset5 : BitVec 5) (rs rd : LowReg) : Statement (.lslImmT offset5 rs rd) := by
  refine thumb_row 0 (by decide) rfl ?_ ?_
  · change _ &&& 0xF800#16 = 0x0000#16
    simp (disch := decide) [or_and, put_and]
  · change Instr.lslImmT (get _ 6 5) (lowOf (get _ 3 3)) (lowOf (get _ 0 3)) = _
    simp [get_or, get_put, get_put_ne, get_numeral]

theorem lsrImmT (offset5 : BitVec 5) (rs rd : LowReg) : Statement (.lsrImmT offset5 rs rd) := by
  refine thumb_row 1 (by decide) rfl ?_ ?_
  · change _ &&& 0xF800#16 = 0x0800#16
    simp (disch := decide) [or_and, put_and]
  · change Instr.lsrImmT (get _ 6 5) (lowOf (get _ 3 3)) (lowOf (get _ 0 3)) = _
    simp [get_or, get_put, get_put_ne, get_numeral]

theorem asrImmT (offset5 : BitVec 5) (rs rd : LowReg) : Statement (.asrImmT offset5 rs rd) := by
  refine thumb_row 2 (by decide) rfl ?_ ?_
  · change _ &&& 0xF800#16 = 0x1000#16
    simp (disch := decide) [or_and, put_and]
  · change Instr.asrImmT (get _ 6 5) (lowOf (get _ 3 3)) (lowOf (get _ 0 3)) = _
    simp [get_or, get_put, get_put_ne, get_numeral]

theorem addRegT (rn rs rd : LowReg) : Statement (.addRegT rn rs rd) := by
  refine thumb_row 3 (by decide) rfl ?_ ?_
  · change _ &&& 0xFE00#16 = 0x1800#16
    simp (disch := decide) [or_and, put_and]
  · change Instr.addRegT (lowOf (get _ 6 3)) (lowOf (get _ 3 3)) (lowOf (get _ 0 3)) = _
    simp [get_or, get_put, get_put_ne, get_numeral]

theorem subRegT (rn rs rd : LowReg) : Statement (.subRegT rn rs rd) := by
  refine thumb_row 4 (by decide) rfl ?_ ?_
  · change _ &&& 0xFE00#16 = 0x1A00#16
    simp (disch := decide) [or_and, put_and]
  · change Instr.subRegT (lowOf (get _ 6 3)) (lowOf (get _ 3 3)) (lowOf (get _ 0 3)) = _
    simp [get_or, get_put, get_put_ne, get_numeral]

theorem addImm3T (imm3 : BitVec 3) (rs rd : LowReg) : Statement (.addImm3T imm3 rs rd) := by
  refine thumb_row 5 (by decide) rfl ?_ ?_
  · change _ &&& 0xFE00#16 = 0x1C00#16
    simp (disch := decide) [or_and, put_and]
  · change Instr.addImm3T (get _ 6 3) (lowOf (get _ 3 3)) (lowOf (get _ 0 3)) = _
    simp [get_or, get_put, get_put_ne, get_numeral]

theorem subImm3T (imm3 : BitVec 3) (rs rd : LowReg) : Statement (.subImm3T imm3 rs rd) := by
  refine thumb_row 6 (by decide) rfl ?_ ?_
  · change _ &&& 0xFE00#16 = 0x1E00#16
    simp (disch := decide) [or_and, put_and]
  · change Instr.subImm3T (get _ 6 3) (lowOf (get _ 3 3)) (lowOf (get _ 0 3)) = _
    simp [get_or, get_put, get_put_ne, get_numeral]

theorem movImmT (rd : LowReg) (imm8 : BitVec 8) : Statement (.movImmT rd imm8) := by
  refine thumb_row 7 (by decide) rfl ?_ ?_
  · change _ &&& 0xF800#16 = 0x2000#16
    simp (disch := decide) [or_and, put_and]
  · change Instr.movImmT (lowOf (get _ 8 3)) (get _ 0 8) = _
    simp [get_or, get_put, get_put_ne, get_numeral]

theorem cmpImmT (rd : LowReg) (imm8 : BitVec 8) : Statement (.cmpImmT rd imm8) := by
  refine thumb_row 8 (by decide) rfl ?_ ?_
  · change _ &&& 0xF800#16 = 0x2800#16
    simp (disch := decide) [or_and, put_and]
  · change Instr.cmpImmT (lowOf (get _ 8 3)) (get _ 0 8) = _
    simp [get_or, get_put, get_put_ne, get_numeral]

theorem addImm8T (rd : LowReg) (imm8 : BitVec 8) : Statement (.addImm8T rd imm8) := by
  refine thumb_row 9 (by decide) rfl ?_ ?_
  · change _ &&& 0xF800#16 = 0x3000#16
    simp (disch := decide) [or_and, put_and]
  · change Instr.addImm8T (lowOf (get _ 8 3)) (get _ 0 8) = _
    simp [get_or, get_put, get_put_ne, get_numeral]

theorem subImm8T (rd : LowReg) (imm8 : BitVec 8) : Statement (.subImm8T rd imm8) := by
  refine thumb_row 10 (by decide) rfl ?_ ?_
  · change _ &&& 0xF800#16 = 0x3800#16
    simp (disch := decide) [or_and, put_and]
  · change Instr.subImm8T (lowOf (get _ 8 3)) (get _ 0 8) = _
    simp [get_or, get_put, get_put_ne, get_numeral]

theorem andT (rs rd : LowReg) : Statement (.andT rs rd) := by
  refine thumb_row 11 (by decide) rfl ?_ ?_
  · change _ &&& 0xFFC0#16 = 0x4000#16
    simp (disch := decide) [or_and, put_and]
  · change Instr.andT (lowOf (get _ 3 3)) (lowOf (get _ 0 3)) = _
    simp [get_or, get_put, get_put_ne, get_numeral]

theorem eorT (rs rd : LowReg) : Statement (.eorT rs rd) := by
  refine thumb_row 12 (by decide) rfl ?_ ?_
  · change _ &&& 0xFFC0#16 = 0x4040#16
    simp (disch := decide) [or_and, put_and]
  · change Instr.eorT (lowOf (get _ 3 3)) (lowOf (get _ 0 3)) = _
    simp [get_or, get_put, get_put_ne, get_numeral]

theorem lslRegT (rs rd : LowReg) : Statement (.lslRegT rs rd) := by
  refine thumb_row 13 (by decide) rfl ?_ ?_
  · change _ &&& 0xFFC0#16 = 0x4080#16
    simp (disch := decide) [or_and, put_and]
  · change Instr.lslRegT (lowOf (get _ 3 3)) (lowOf (get _ 0 3)) = _
    simp [get_or, get_put, get_put_ne, get_numeral]

theorem lsrRegT (rs rd : LowReg) : Statement (.lsrRegT rs rd) := by
  refine thumb_row 14 (by decide) rfl ?_ ?_
  · change _ &&& 0xFFC0#16 = 0x40C0#16
    simp (disch := decide) [or_and, put_and]
  · change Instr.lsrRegT (lowOf (get _ 3 3)) (lowOf (get _ 0 3)) = _
    simp [get_or, get_put, get_put_ne, get_numeral]

theorem asrRegT (rs rd : LowReg) : Statement (.asrRegT rs rd) := by
  refine thumb_row 15 (by decide) rfl ?_ ?_
  · change _ &&& 0xFFC0#16 = 0x4100#16
    simp (disch := decide) [or_and, put_and]
  · change Instr.asrRegT (lowOf (get _ 3 3)) (lowOf (get _ 0 3)) = _
    simp [get_or, get_put, get_put_ne, get_numeral]

theorem adcT (rs rd : LowReg) : Statement (.adcT rs rd) := by
  refine thumb_row 16 (by decide) rfl ?_ ?_
  · change _ &&& 0xFFC0#16 = 0x4140#16
    simp (disch := decide) [or_and, put_and]
  · change Instr.adcT (lowOf (get _ 3 3)) (lowOf (get _ 0 3)) = _
    simp [get_or, get_put, get_put_ne, get_numeral]

theorem sbcT (rs rd : LowReg) : Statement (.sbcT rs rd) := by
  refine thumb_row 17 (by decide) rfl ?_ ?_
  · change _ &&& 0xFFC0#16 = 0x4180#16
    simp (disch := decide) [or_and, put_and]
  · change Instr.sbcT (lowOf (get _ 3 3)) (lowOf (get _ 0 3)) = _
    simp [get_or, get_put, get_put_ne, get_numeral]

theorem rorT (rs rd : LowReg) : Statement (.rorT rs rd) := by
  refine thumb_row 18 (by decide) rfl ?_ ?_
  · change _ &&& 0xFFC0#16 = 0x41C0#16
    simp (disch := decide) [or_and, put_and]
  · change Instr.rorT (lowOf (get _ 3 3)) (lowOf (get _ 0 3)) = _
    simp [get_or, get_put, get_put_ne, get_numeral]

theorem tstT (rs rd : LowReg) : Statement (.tstT rs rd) := by
  refine thumb_row 19 (by decide) rfl ?_ ?_
  · change _ &&& 0xFFC0#16 = 0x4200#16
    simp (disch := decide) [or_and, put_and]
  · change Instr.tstT (lowOf (get _ 3 3)) (lowOf (get _ 0 3)) = _
    simp [get_or, get_put, get_put_ne, get_numeral]

theorem negT (rs rd : LowReg) : Statement (.negT rs rd) := by
  refine thumb_row 20 (by decide) rfl ?_ ?_
  · change _ &&& 0xFFC0#16 = 0x4240#16
    simp (disch := decide) [or_and, put_and]
  · change Instr.negT (lowOf (get _ 3 3)) (lowOf (get _ 0 3)) = _
    simp [get_or, get_put, get_put_ne, get_numeral]

theorem cmpRegT (rs rd : LowReg) : Statement (.cmpRegT rs rd) := by
  refine thumb_row 21 (by decide) rfl ?_ ?_
  · change _ &&& 0xFFC0#16 = 0x4280#16
    simp (disch := decide) [or_and, put_and]
  · change Instr.cmpRegT (lowOf (get _ 3 3)) (lowOf (get _ 0 3)) = _
    simp [get_or, get_put, get_put_ne, get_numeral]

theorem cmnT (rs rd : LowReg) : Statement (.cmnT rs rd) := by
  refine thumb_row 22 (by decide) rfl ?_ ?_
  · change _ &&& 0xFFC0#16 = 0x42C0#16
    simp (disch := decide) [or_and, put_and]
  · change Instr.cmnT (lowOf (get _ 3 3)) (lowOf (get _ 0 3)) = _
    simp [get_or, get_put, get_put_ne, get_numeral]

theorem orrT (rs rd : LowReg) : Statement (.orrT rs rd) := by
  refine thumb_row 23 (by decide) rfl ?_ ?_
  · change _ &&& 0xFFC0#16 = 0x4300#16
    simp (disch := decide) [or_and, put_and]
  · change Instr.orrT (lowOf (get _ 3 3)) (lowOf (get _ 0 3)) = _
    simp [get_or, get_put, get_put_ne, get_numeral]

theorem mulT (rs rd : LowReg) : Statement (.mulT rs rd) := by
  refine thumb_row 24 (by decide) rfl ?_ ?_
  · change _ &&& 0xFFC0#16 = 0x4340#16
    simp (disch := decide) [or_and, put_and]
  · change Instr.mulT (lowOf (get _ 3 3)) (lowOf (get _ 0 3)) = _
    simp [get_or, get_put, get_put_ne, get_numeral]

theorem bicT (rs rd : LowReg) : Statement (.bicT rs rd) := by
  refine thumb_row 25 (by decide) rfl ?_ ?_
  · change _ &&& 0xFFC0#16 = 0x4380#16
    simp (disch := decide) [or_and, put_and]
  · change Instr.bicT (lowOf (get _ 3 3)) (lowOf (get _ 0 3)) = _
    simp [get_or, get_put, get_put_ne, get_numeral]

theorem mvnT (rs rd : LowReg) : Statement (.mvnT rs rd) := by
  refine thumb_row 26 (by decide) rfl ?_ ?_
  · change _ &&& 0xFFC0#16 = 0x43C0#16
    simp (disch := decide) [or_and, put_and]
  · change Instr.mvnT (lowOf (get _ 3 3)) (lowOf (get _ 0 3)) = _
    simp [get_or, get_put, get_put_ne, get_numeral]

theorem addHiT (h1 h2 : Bool) (rs rd : LowReg) : Statement (.addHiT h1 h2 rs rd) := by
  refine thumb_row 27 (by decide) rfl ?_ ?_
  · change _ &&& 0xFF00#16 = 0x4400#16
    simp (disch := decide) [or_and, put_and]
  · change Instr.addHiT (flagOf (get _ 7 1)) (flagOf (get _ 6 1)) (lowOf (get _ 3 3)) (lowOf (get _ 0 3)) = _
    simp [get_or, get_put, get_put_ne, get_numeral]

theorem cmpHiT (h1 h2 : Bool) (rs rd : LowReg) : Statement (.cmpHiT h1 h2 rs rd) := by
  refine thumb_row 28 (by decide) rfl ?_ ?_
  · change _ &&& 0xFF00#16 = 0x4500#16
    simp (disch := decide) [or_and, put_and]
  · change Instr.cmpHiT (flagOf (get _ 7 1)) (flagOf (get _ 6 1)) (lowOf (get _ 3 3)) (lowOf (get _ 0 3)) = _
    simp [get_or, get_put, get_put_ne, get_numeral]

theorem movHiT (h1 h2 : Bool) (rs rd : LowReg) : Statement (.movHiT h1 h2 rs rd) := by
  refine thumb_row 29 (by decide) rfl ?_ ?_
  · change _ &&& 0xFF00#16 = 0x4600#16
    simp (disch := decide) [or_and, put_and]
  · change Instr.movHiT (flagOf (get _ 7 1)) (flagOf (get _ 6 1)) (lowOf (get _ 3 3)) (lowOf (get _ 0 3)) = _
    simp [get_or, get_put, get_put_ne, get_numeral]

theorem bxT (h2 : Bool) (rs : LowReg) : Statement (.bxT h2 rs) := by
  refine thumb_row 30 (by decide) rfl ?_ ?_
  · change _ &&& 0xFF80#16 = 0x4700#16
    simp (disch := decide) [or_and, put_and]
  · change Instr.bxT (flagOf (get _ 6 1)) (lowOf (get _ 3 3)) = _
    simp [get_or, get_put, get_put_ne, get_numeral]

theorem bxH1T (h2 : Bool) (rs : LowReg) : Statement (.bxH1T h2 rs) := by
  refine thumb_row 31 (by decide) rfl ?_ ?_
  · change _ &&& 0xFF80#16 = 0x4780#16
    simp (disch := decide) [or_and, put_and]
  · change Instr.bxH1T (flagOf (get _ 6 1)) (lowOf (get _ 3 3)) = _
    simp [get_or, get_put, get_put_ne, get_numeral]

theorem ldrPcT (rd : LowReg) (word8 : BitVec 8) : Statement (.ldrPcT rd word8) := by
  refine thumb_row 32 (by decide) rfl ?_ ?_
  · change _ &&& 0xF800#16 = 0x4800#16
    simp (disch := decide) [or_and, put_and]
  · change Instr.ldrPcT (lowOf (get _ 8 3)) (get _ 0 8) = _
    simp [get_or, get_put, get_put_ne, get_numeral]

theorem strRegT (ro rb rd : LowReg) : Statement (.strRegT ro rb rd) := by
  refine thumb_row 33 (by decide) rfl ?_ ?_
  · change _ &&& 0xFE00#16 = 0x5000#16
    simp (disch := decide) [or_and, put_and]
  · change Instr.strRegT (lowOf (get _ 6 3)) (lowOf (get _ 3 3)) (lowOf (get _ 0 3)) = _
    simp [get_or, get_put, get_put_ne, get_numeral]

theorem strbRegT (ro rb rd : LowReg) : Statement (.strbRegT ro rb rd) := by
  refine thumb_row 34 (by decide) rfl ?_ ?_
  · change _ &&& 0xFE00#16 = 0x5400#16
    simp (disch := decide) [or_and, put_and]
  · change Instr.strbRegT (lowOf (get _ 6 3)) (lowOf (get _ 3 3)) (lowOf (get _ 0 3)) = _
    simp [get_or, get_put, get_put_ne, get_numeral]

theorem ldrRegT (ro rb rd : LowReg) : Statement (.ldrRegT ro rb rd) := by
  refine thumb_row 35 (by decide) rfl ?_ ?_
  · change _ &&& 0xFE00#16 = 0x5800#16
    simp (disch := decide) [or_and, put_and]
  · change Instr.ldrRegT (lowOf (get _ 6 3)) (lowOf (get _ 3 3)) (lowOf (get _ 0 3)) = _
    simp [get_or, get_put, get_put_ne, get_numeral]

theorem ldrbRegT (ro rb rd : LowReg) : Statement (.ldrbRegT ro rb rd) := by
  refine thumb_row 36 (by decide) rfl ?_ ?_
  · change _ &&& 0xFE00#16 = 0x5C00#16
    simp (disch := decide) [or_and, put_and]
  · change Instr.ldrbRegT (lowOf (get _ 6 3)) (lowOf (get _ 3 3)) (lowOf (get _ 0 3)) = _
    simp [get_or, get_put, get_put_ne, get_numeral]

theorem strhRegT (ro rb rd : LowReg) : Statement (.strhRegT ro rb rd) := by
  refine thumb_row 37 (by decide) rfl ?_ ?_
  · change _ &&& 0xFE00#16 = 0x5200#16
    simp (disch := decide) [or_and, put_and]
  · change Instr.strhRegT (lowOf (get _ 6 3)) (lowOf (get _ 3 3)) (lowOf (get _ 0 3)) = _
    simp [get_or, get_put, get_put_ne, get_numeral]

theorem ldsbRegT (ro rb rd : LowReg) : Statement (.ldsbRegT ro rb rd) := by
  refine thumb_row 38 (by decide) rfl ?_ ?_
  · change _ &&& 0xFE00#16 = 0x5600#16
    simp (disch := decide) [or_and, put_and]
  · change Instr.ldsbRegT (lowOf (get _ 6 3)) (lowOf (get _ 3 3)) (lowOf (get _ 0 3)) = _
    simp [get_or, get_put, get_put_ne, get_numeral]

theorem ldrhRegT (ro rb rd : LowReg) : Statement (.ldrhRegT ro rb rd) := by
  refine thumb_row 39 (by decide) rfl ?_ ?_
  · change _ &&& 0xFE00#16 = 0x5A00#16
    simp (disch := decide) [or_and, put_and]
  · change Instr.ldrhRegT (lowOf (get _ 6 3)) (lowOf (get _ 3 3)) (lowOf (get _ 0 3)) = _
    simp [get_or, get_put, get_put_ne, get_numeral]

theorem ldshRegT (ro rb rd : LowReg) : Statement (.ldshRegT ro rb rd) := by
  refine thumb_row 40 (by decide) rfl ?_ ?_
  · change _ &&& 0xFE00#16 = 0x5E00#16
    simp (disch := decide) [or_and, put_and]
  · change Instr.ldshRegT (lowOf (get _ 6 3)) (lowOf (get _ 3 3)) (lowOf (get _ 0 3)) = _
    simp [get_or, get_put, get_put_ne, get_numeral]

theorem strImmT (offset5 : BitVec 5) (rb rd : LowReg) : Statement (.strImmT offset5 rb rd) := by
  refine thumb_row 41 (by decide) rfl ?_ ?_
  · change _ &&& 0xF800#16 = 0x6000#16
    simp (disch := decide) [or_and, put_and]
  · change Instr.strImmT (get _ 6 5) (lowOf (get _ 3 3)) (lowOf (get _ 0 3)) = _
    simp [get_or, get_put, get_put_ne, get_numeral]

theorem ldrImmT (offset5 : BitVec 5) (rb rd : LowReg) : Statement (.ldrImmT offset5 rb rd) := by
  refine thumb_row 42 (by decide) rfl ?_ ?_
  · change _ &&& 0xF800#16 = 0x6800#16
    simp (disch := decide) [or_and, put_and]
  · change Instr.ldrImmT (get _ 6 5) (lowOf (get _ 3 3)) (lowOf (get _ 0 3)) = _
    simp [get_or, get_put, get_put_ne, get_numeral]

theorem strbImmT (offset5 : BitVec 5) (rb rd : LowReg) : Statement (.strbImmT offset5 rb rd) := by
  refine thumb_row 43 (by decide) rfl ?_ ?_
  · change _ &&& 0xF800#16 = 0x7000#16
    simp (disch := decide) [or_and, put_and]
  · change Instr.strbImmT (get _ 6 5) (lowOf (get _ 3 3)) (lowOf (get _ 0 3)) = _
    simp [get_or, get_put, get_put_ne, get_numeral]

theorem ldrbImmT (offset5 : BitVec 5) (rb rd : LowReg) : Statement (.ldrbImmT offset5 rb rd) := by
  refine thumb_row 44 (by decide) rfl ?_ ?_
  · change _ &&& 0xF800#16 = 0x7800#16
    simp (disch := decide) [or_and, put_and]
  · change Instr.ldrbImmT (get _ 6 5) (lowOf (get _ 3 3)) (lowOf (get _ 0 3)) = _
    simp [get_or, get_put, get_put_ne, get_numeral]

theorem strhImmT (offset5 : BitVec 5) (rb rd : LowReg) : Statement (.strhImmT offset5 rb rd) := by
  refine thumb_row 45 (by decide) rfl ?_ ?_
  · change _ &&& 0xF800#16 = 0x8000#16
    simp (disch := decide) [or_and, put_and]
  · change Instr.strhImmT (get _ 6 5) (lowOf (get _ 3 3)) (lowOf (get _ 0 3)) = _
    simp [get_or, get_put, get_put_ne, get_numeral]

theorem ldrhImmT (offset5 : BitVec 5) (rb rd : LowReg) : Statement (.ldrhImmT offset5 rb rd) := by
  refine thumb_row 46 (by decide) rfl ?_ ?_
  · change _ &&& 0xF800#16 = 0x8800#16
    simp (disch := decide) [or_and, put_and]
  · change Instr.ldrhImmT (get _ 6 5) (lowOf (get _ 3 3)) (lowOf (get _ 0 3)) = _
    simp [get_or, get_put, get_put_ne, get_numeral]

theorem strSpT (rd : LowReg) (word8 : BitVec 8) : Statement (.strSpT rd word8) := by
  refine thumb_row 47 (by decide) rfl ?_ ?_
  · change _ &&& 0xF800#16 = 0x9000#16
    simp (disch := decide) [or_and, put_and]
  · change Instr.strSpT (lowOf (get _ 8 3)) (get _ 0 8) = _
    simp [get_or, get_put, get_put_ne, get_numeral]

theorem ldrSpT (rd : LowReg) (word8 : BitVec 8) : Statement (.ldrSpT rd word8) := by
  refine thumb_row 48 (by decide) rfl ?_ ?_
  · change _ &&& 0xF800#16 = 0x9800#16
    simp (disch := decide) [or_and, put_and]
  · change Instr.ldrSpT (lowOf (get _ 8 3)) (get _ 0 8) = _
    simp [get_or, get_put, get_put_ne, get_numeral]

theorem addPcT (rd : LowReg) (word8 : BitVec 8) : Statement (.addPcT rd word8) := by
  refine thumb_row 49 (by decide) rfl ?_ ?_
  · change _ &&& 0xF800#16 = 0xA000#16
    simp (disch := decide) [or_and, put_and]
  · change Instr.addPcT (lowOf (get _ 8 3)) (get _ 0 8) = _
    simp [get_or, get_put, get_put_ne, get_numeral]

theorem addSpT (rd : LowReg) (word8 : BitVec 8) : Statement (.addSpT rd word8) := by
  refine thumb_row 50 (by decide) rfl ?_ ?_
  · change _ &&& 0xF800#16 = 0xA800#16
    simp (disch := decide) [or_and, put_and]
  · change Instr.addSpT (lowOf (get _ 8 3)) (get _ 0 8) = _
    simp [get_or, get_put, get_put_ne, get_numeral]

theorem addSpimmT (sword7 : BitVec 7) : Statement (.addSpimmT sword7) := by
  refine thumb_row 51 (by decide) rfl ?_ ?_
  · change _ &&& 0xFF80#16 = 0xB000#16
    simp (disch := decide) [or_and, put_and]
  · change Instr.addSpimmT (get _ 0 7) = _
    simp [get_or, get_put, get_put_ne, get_numeral]

theorem subSpimmT (sword7 : BitVec 7) : Statement (.subSpimmT sword7) := by
  refine thumb_row 52 (by decide) rfl ?_ ?_
  · change _ &&& 0xFF80#16 = 0xB080#16
    simp (disch := decide) [or_and, put_and]
  · change Instr.subSpimmT (get _ 0 7) = _
    simp [get_or, get_put, get_put_ne, get_numeral]

theorem pushT (r : Bool) (list : BitVec 8) : Statement (.pushT r list) := by
  refine thumb_row 53 (by decide) rfl ?_ ?_
  · change _ &&& 0xFE00#16 = 0xB400#16
    simp (disch := decide) [or_and, put_and]
  · change Instr.pushT (flagOf (get _ 8 1)) (get _ 0 8) = _
    simp [get_or, get_put, get_put_ne, get_numeral]

theorem popT (r : Bool) (list : BitVec 8) : Statement (.popT r list) := by
  refine thumb_row 54 (by decide) rfl ?_ ?_
  · change _ &&& 0xFE00#16 = 0xBC00#16
    simp (disch := decide) [or_and, put_and]
  · change Instr.popT (flagOf (get _ 8 1)) (get _ 0 8) = _
    simp [get_or, get_put, get_put_ne, get_numeral]

theorem stmiaT (rb : LowReg) (list : BitVec 8) : Statement (.stmiaT rb list) := by
  refine thumb_row 55 (by decide) rfl ?_ ?_
  · change _ &&& 0xF800#16 = 0xC000#16
    simp (disch := decide) [or_and, put_and]
  · change Instr.stmiaT (lowOf (get _ 8 3)) (get _ 0 8) = _
    simp [get_or, get_put, get_put_ne, get_numeral]

theorem ldmiaT (rb : LowReg) (list : BitVec 8) : Statement (.ldmiaT rb list) := by
  refine thumb_row 56 (by decide) rfl ?_ ?_
  · change _ &&& 0xF800#16 = 0xC800#16
    simp (disch := decide) [or_and, put_and]
  · change Instr.ldmiaT (lowOf (get _ 8 3)) (get _ 0 8) = _
    simp [get_or, get_put, get_put_ne, get_numeral]

theorem beqT (soffset8 : BitVec 8) : Statement (.beqT soffset8) := by
  refine thumb_row 57 (by decide) rfl ?_ ?_
  · change _ &&& 0xFF00#16 = 0xD000#16
    simp (disch := decide) [or_and, put_and]
  · change Instr.beqT (get _ 0 8) = _
    simp [get_or, get_put, get_put_ne, get_numeral]

theorem bneT (soffset8 : BitVec 8) : Statement (.bneT soffset8) := by
  refine thumb_row 58 (by decide) rfl ?_ ?_
  · change _ &&& 0xFF00#16 = 0xD100#16
    simp (disch := decide) [or_and, put_and]
  · change Instr.bneT (get _ 0 8) = _
    simp [get_or, get_put, get_put_ne, get_numeral]

theorem bcsT (soffset8 : BitVec 8) : Statement (.bcsT soffset8) := by
  refine thumb_row 59 (by decide) rfl ?_ ?_
  · change _ &&& 0xFF00#16 = 0xD200#16
    simp (disch := decide) [or_and, put_and]
  · change Instr.bcsT (get _ 0 8) = _
    simp [get_or, get_put, get_put_ne, get_numeral]

theorem bccT (soffset8 : BitVec 8) : Statement (.bccT soffset8) := by
  refine thumb_row 60 (by decide) rfl ?_ ?_
  · change _ &&& 0xFF00#16 = 0xD300#16
    simp (disch := decide) [or_and, put_and]
  · change Instr.bccT (get _ 0 8) = _
    simp [get_or, get_put, get_put_ne, get_numeral]

theorem bmiT (soffset8 : BitVec 8) : Statement (.bmiT soffset8) := by
  refine thumb_row 61 (by decide) rfl ?_ ?_
  · change _ &&& 0xFF00#16 = 0xD400#16
    simp (disch := decide) [or_and, put_and]
  · change Instr.bmiT (get _ 0 8) = _
    simp [get_or, get_put, get_put_ne, get_numeral]

theorem bplT (soffset8 : BitVec 8) : Statement (.bplT soffset8) := by
  refine thumb_row 62 (by decide) rfl ?_ ?_
  · change _ &&& 0xFF00#16 = 0xD500#16
    simp (disch := decide) [or_and, put_and]
  · change Instr.bplT (get _ 0 8) = _
    simp [get_or, get_put, get_put_ne, get_numeral]

theorem bvsT (soffset8 : BitVec 8) : Statement (.bvsT soffset8) := by
  refine thumb_row 63 (by decide) rfl ?_ ?_
  · change _ &&& 0xFF00#16 = 0xD600#16
    simp (disch := decide) [or_and, put_and]
  · change Instr.bvsT (get _ 0 8) = _
    simp [get_or, get_put, get_put_ne, get_numeral]

theorem bvcT (soffset8 : BitVec 8) : Statement (.bvcT soffset8) := by
  refine thumb_row 64 (by decide) rfl ?_ ?_
  · change _ &&& 0xFF00#16 = 0xD700#16
    simp (disch := decide) [or_and, put_and]
  · change Instr.bvcT (get _ 0 8) = _
    simp [get_or, get_put, get_put_ne, get_numeral]

theorem bhiT (soffset8 : BitVec 8) : Statement (.bhiT soffset8) := by
  refine thumb_row 65 (by decide) rfl ?_ ?_
  · change _ &&& 0xFF00#16 = 0xD800#16
    simp (disch := decide) [or_and, put_and]
  · change Instr.bhiT (get _ 0 8) = _
    simp [get_or, get_put, get_put_ne, get_numeral]

theorem blsT (soffset8 : BitVec 8) : Statement (.blsT soffset8) := by
  refine thumb_row 66 (by decide) rfl ?_ ?_
  · change _ &&& 0xFF00#16 = 0xD900#16
    simp (disch := decide) [or_and, put_and]
  · change Instr.blsT (get _ 0 8) = _
    simp [get_or, get_put, get_put_ne, get_numeral]

theorem bgeT (soffset8 : BitVec 8) : Statement (.bgeT soffset8) := by
  refine thumb_row 67 (by decide) rfl ?_ ?_
  · change _ &&& 0xFF00#16 = 0xDA00#16
    simp (disch := decide) [or_and, put_and]
  · change Instr.bgeT (get _ 0 8) = _
    simp [get_or, get_put, get_put_ne, get_numeral]

theorem bltT (soffset8 : BitVec 8) : Statement (.bltT soffset8) := by
  refine thumb_row 68 (by decide) rfl ?_ ?_
  · change _ &&& 0xFF00#16 = 0xDB00#16
    simp (disch := decide) [or_and, put_and]
  · change Instr.bltT (get _ 0 8) = _
    simp [get_or, get_put, get_put_ne, get_numeral]

theorem bgtT (soffset8 : BitVec 8) : Statement (.bgtT soffset8) := by
  refine thumb_row 69 (by decide) rfl ?_ ?_
  · change _ &&& 0xFF00#16 = 0xDC00#16
    simp (disch := decide) [or_and, put_and]
  · change Instr.bgtT (get _ 0 8) = _
    simp [get_or, get_put, get_put_ne, get_numeral]

theorem bleT (soffset8 : BitVec 8) : Statement (.bleT soffset8) := by
  refine thumb_row 70 (by decide) rfl ?_ ?_
  · change _ &&& 0xFF00#16 = 0xDD00#16
    simp (disch := decide) [or_and, put_and]
  · change Instr.bleT (get _ 0 8) = _
    simp [get_or, get_put, get_put_ne, get_numeral]

theorem swiT (value8 : BitVec 8) : Statement (.swiT value8) := by
  refine thumb_row 71 (by decide) rfl ?_ ?_
  · change _ &&& 0xFF00#16 = 0xDF00#16
    simp (disch := decide) [or_and, put_and]
  · change Instr.swiT (get _ 0 8) = _
    simp [get_or, get_put, get_put_ne, get_numeral]

theorem bT (offset11 : BitVec 11) : Statement (.bT offset11) := by
  refine thumb_row 72 (by decide) rfl ?_ ?_
  · change _ &&& 0xF800#16 = 0xE000#16
    simp (disch := decide) [or_and, put_and]
  · change Instr.bT (get _ 0 11) = _
    simp [get_or, get_put, get_put_ne, get_numeral]

theorem blHiT (offset11 : BitVec 11) : Statement (.blHiT offset11) := by
  refine thumb_row 73 (by decide) rfl ?_ ?_
  · change _ &&& 0xF800#16 = 0xF000#16
    simp (disch := decide) [or_and, put_and]
  · change Instr.blHiT (get _ 0 11) = _
    simp [get_or, get_put, get_put_ne, get_numeral]

theorem blLoT (offset11 : BitVec 11) : Statement (.blLoT offset11) := by
  refine thumb_row 74 (by decide) rfl ?_ ?_
  · change _ &&& 0xF800#16 = 0xF800#16
    simp (disch := decide) [or_and, put_and]
  · change Instr.blLoT (get _ 0 11) = _
    simp [get_or, get_put, get_put_ne, get_numeral]

end Sys2Proof.Laws.EncodedRow
end

