-- ==== Sys2Proof/Laws/Step.lean ====
section
/-! SUPPORT. Laws/Step.lean: what the fetch and the decoder can answer. -/
namespace Sys2Proof.Machine
open Sys2Proof

/-- A fetch changes only what a read of the bus changes, and answers code of the current state. -/
theorem fetch_frame {s t : State} {code : Code} (h : s.fetch = .ok (code, t)) :
    ReadFrame s t ∧ ((s.thumb = true ∧ ∃ v, code = .thumb v) ∨ (s.thumb = false ∧ ∃ w, code = .arm w)) := by
  unfold State.fetch at h
  split at h <;> rename_i hT <;> simp only [bind_ok] at h
  · obtain ⟨_, _, ⟨v, u⟩, hr, hp⟩ := h
    simp only [pure_ok, Prod.mk.injEq] at hp
    obtain ⟨rfl, rfl⟩ := hp
    exact ⟨memRead_frame hr, .inl ⟨hT, _, rfl⟩⟩
  · obtain ⟨_, _, ⟨v, u⟩, hr, hp⟩ := h
    simp only [pure_ok, Prod.mk.injEq] at hp
    obtain ⟨rfl, rfl⟩ := hp
    exact ⟨memRead_frame hr, .inr ⟨by simpa using hT, _, rfl⟩⟩

end Sys2Proof.Machine

namespace Sys2Proof
open Sys2Proof.Machine

/-- Every ARM row builds an instruction with the condition of bits 31:28. -/
theorem armRows_cond : ∀ r ∈ armRows, ∀ v, (r.build v).cond? = some (Cond.ofBits (get v 28 4)) := by
  refine List.forall_iff_forall_mem.mp ?_
  simp only [armRows, List.forall_append]
  repeat' constructor
  all_goals first | exact trivial | exact fun _ => rfl

/-- A decoded ARM word has the condition of its bits 31:28. -/
theorem decodeArm_cond {w : Word} {i : Instr} (h : decodeArm w = .ok i) : i.cond? = some (Cond.ofBits (get w 28 4)) := by
  unfold decodeArm rowOf at h
  split at h
  · rename_i r hr
    cases h
    exact armRows_cond r (List.mem_of_find?_eq_some hr) w
  · cases h

end Sys2Proof
end

