-- ==== Sys2Proof/Tests/Slice0.lean ====
section
/-! SUPPORT. Tests/Slice0.lean: the spec's own vectors, one step each; ill-formed forms refused; words written out from the encodings;
and for each statement with hypotheses a witness that meets them. -/
namespace Sys2Proof.Tests
open Sys2Proof Sys2Proof.Machine Sys2Proof.Claims

/-! ### Vectors of 95_test_vectors.md, under its own numbers -/

/-- The creation state of the spec's vectors with registers, a status word, a pc, bytes and saved status words set. -/
def state (regs : List (PhysReg × Word)) (cpsr pc : Word) (mem : List (Nat × List Byte)) (spsr : List (Fin 5 × Word)) : State :=
  let s := regs.foldl (fun s x => s.writePhys x.1 x.2) State.reset
  { s with
    cpsr := cpsr, pc := pc
    mem := mem.foldl (fun m x => Memory.writeBytes m x.1 x.2) []
    spsr := spsr.foldl (fun v x => v.set x.1 x.2 x.1.isLt) s.spsr }

/-- The step's next state is `s` with these registers and bytes changed, and this CPSR and pc. -/
def ends (s : State) (regs : List (PhysReg × Word)) (cpsr pc : Word) (mem : List (Nat × List Byte)) (halted : Bool) : Bool :=
  match step s with
  | .next t =>
    t.regs == (regs.foldl (fun s x => s.writePhys x.1 x.2) s).regs && t.cpsr == cpsr && t.pc == pc &&
      t.mem == mem.foldl (fun m x => Memory.writeBytes m x.1 x.2) s.mem && t.spsr == s.spsr && t.halted == halted
  | _ => false

/-- The step faults so. -/
def faults (s : State) (f : Fault) : Bool :=
  match step s with
  | .fault g => g == f
  | _ => false

/-- The channel of 95_test_vectors.md 1.6. -/
def vram : Channel := ⟨"vram", 1, 0x06000000, 0x18000⟩

/-- 1.4a, `ADDS R0, R1, #1`. -/
theorem test_1_4a : ends ((state [(.low 1, 0x7fffffff)] 0x0000001f 0x0 [] []).withFetchWord 32 0xE2910001)
    [(.low 0, 0x80000000)] 0x9000001f 0x4 [] false = true := by decide
/-- 1.4c, `SUBS R0, R1, #1`. -/
theorem test_1_4c : ends ((state [(.low 1, 0x80000000)] 0x0000001f 0x0 [] []).withFetchWord 32 0xE2510001)
    [(.low 0, 0x7fffffff)] 0x3000001f 0x4 [] false = true := by decide
/-- 1.4d, `ANDS R0, R1, #0x80000000`. -/
theorem test_1_4d : ends ((state [(.low 1, 0x0)] 0x0000001f 0x0 [] []).withFetchWord 32 0xE2110102)
    [] 0x6000001f 0x4 [] false = true := by decide
/-- 1.4f, `ORRS R0, R1, R2, LSR #1`. -/
theorem test_1_4f : ends ((state [(.low 1, 0x0), (.low 2, 0x3)] 0x0000001f 0x0 [] []).withFetchWord 32 0xE19100A2)
    [(.low 0, 0x1)] 0x2000001f 0x4 [] false = true := by decide
/-- 1.4g, `MVNS R0, R1`. -/
theorem test_1_4g : ends ((state [(.low 1, 0x0)] 0x3000001f 0x0 [] []).withFetchWord 32 0xE1F00001)
    [(.low 0, 0xffffffff)] 0xb000001f 0x4 [] false = true := by decide
/-- 1.5c, `LDMDA R3, {R0-R2}`. -/
theorem test_1_5c : ends ((state [(.low 3, 0x108)] 0x0000001f 0x0 [(0x100, [0xa, 0x0, 0x0, 0x0]), (0x104, [0x14, 0x0, 0x0, 0x0]), (0x108, [0x1e, 0x0, 0x0, 0x0])] []).withFetchWord 32 0xE8130007)
    [(.low 0, 0xa), (.low 1, 0x14), (.low 2, 0x1e)] 0x1f 0x4 [] false = true := by decide
/-- 1.5d, `LDMDB R3, {R0-R2}`. -/
theorem test_1_5d : ends ((state [(.low 3, 0x10c)] 0x0000001f 0x0 [(0x100, [0xa, 0x0, 0x0, 0x0]), (0x104, [0x14, 0x0, 0x0, 0x0]), (0x108, [0x1e, 0x0, 0x0, 0x0])] []).withFetchWord 32 0xE9130007)
    [(.low 0, 0xa), (.low 1, 0x14), (.low 2, 0x1e)] 0x1f 0x4 [] false = true := by decide
/-- 1.6a, `STR R0, [R1, #0x10]`. -/
theorem test_1_6a : ends (((state [(.low 0, 0xab), (.low 1, 0x6000000)] 0x0000001f 0x0 [] []).register vram).withFetchWord 32 0xE5810010)
    [] 0x1f 0x4 [] false = true := by decide
/-- 1.8, `B 0x48`. -/
theorem test_1_8 : ends ((state [] 0x0000001f 0x0 [] []).withFetchWord 32 0xEA000010)
    [] 0x1f 0x48 [] false = true := by decide
/-- 2.1a, `MOV R0, PC`. -/
theorem test_2_1a : ends ((state [] 0x0000001f 0x100 [] []).withFetchWord 32 0xE1A0000F)
    [(.low 0, 0x108)] 0x1f 0x104 [] false = true := by decide
/-- 2.1c, `MOVEQ R0, #1 (Z = 0)`. -/
theorem test_2_1c : ends ((state [] 0x0000001f 0x0 [] []).withFetchWord 32 0x03A00001)
    [] 0x1f 0x4 [] false = true := by decide
/-- 2.1e, `cond 1111 word`. -/
theorem test_2_1e : ends ((state [] 0x0000001f 0x0 [] []).withFetchWord 32 0xF3A00001)
    [] 0x1f 0x4 [] false = true := by decide
/-- 2.1j, `MSR CPSR_c, R0 (T set, no PC write)`. -/
theorem test_2_1j : ends ((state [(.low 0, 0x3f)] 0x0000001f 0x100 [] []).withFetchWord 32 0xE121F000)
    [] 0x3f 0x104 [] false = true := by decide
/-- 2.4d, `BLNE (Z = 1)`. -/
theorem test_2_4d : ends ((state [] 0x4000001f 0x100 [] []).withFetchWord 32 0x1B000003)
    [] 0x4000001f 0x104 [] false = true := by decide
/-- 2.4e, `BL back`. -/
theorem test_2_4e : ends ((state [] 0x0000001f 0x200 [] []).withFetchWord 32 0xEBFFFFC0)
    [(.lr .usr, 0x204)] 0x1f 0x108 [] false = true := by decide
/-- 2.4g, `BX R0 (bit 0 = 1, bit 1 = 1)`. -/
theorem test_2_4g : ends ((state [(.low 0, 0x303)] 0x0000001f 0x0 [] []).withFetchWord 32 0xE12FFF10)
    [] 0x3f 0x302 [] false = true := by decide
/-- 2.4h, `BX R0 (bits 1:0 = 10)`. -/
theorem test_2_4h : faults ((state [(.low 0, 0x302)] 0x0000001f 0x0 [] []).withFetchWord 32 0xE12FFF10) (.unpredictable .bxUnalignedArm) = true := by decide
/-- 2.4j, `BLX R2`. -/
theorem test_2_4j : ends ((state [(.low 2, 0x80)] 0x0000001f 0x40 [] []).withFetchWord 32 0xE12FFF32)
    [(.lr .usr, 0x44)] 0x1f 0x80 [] false = true := by decide
/-- 2.5b, `MOVS R0, R1, RRX`. -/
theorem test_2_5b : ends ((state [(.low 1, 0x1)] 0x2000001f 0x0 [] []).withFetchWord 32 0xE1B00061)
    [(.low 0, 0x80000000)] 0xa000001f 0x4 [] false = true := by decide
/-- 2.5f, `ADD R0, PC, R1, LSL R2`. -/
theorem test_2_5f : faults ((state [(.low 1, 0x1), (.low 2, 0x1)] 0x0000001f 0x0 [] []).withFetchWord 32 0xE08F0211) (.unpredictable .dpRegShiftPc) = true := by decide
/-- 2.5h, `MOV PC, R0 (misaligned)`. -/
theorem test_2_5h : faults ((state [(.low 0, 0x202)] 0x0000001f 0x0 [] []).withFetchWord 32 0xE1A0F000) (.unpredictable .unalignedPcWrite) = true := by decide
/-- 2.5i, `MOVS PC, LR (SVC, SPSR = User + T)`. -/
theorem test_2_5i : ends ((state [(.lr .svc, 0x201)] 0x00000013 0x0 [] [(2, 0x30)]).withFetchWord 32 0xE1B0F00E)
    [] 0x30 0x200 [] false = true := by decide
/-- 2.5j, `SUBS PC, LR, #4 (IRQ)`. -/
theorem test_2_5j : ends ((state [(.lr .irq, 0x104)] 0x00000092 0x0 [] [(1, 0x6000001f)]).withFetchWord 32 0xE25EF004)
    [] 0x6000001f 0x100 [] false = true := by decide
/-- 2.5m, `CMP R1, #5 with Rd field = 15`. -/
theorem test_2_5m : ends ((state [(.low 1, 0x5)] 0x0000001f 0x0 [] []).withFetchWord 32 0xE351F005)
    [] 0x6000001f 0x4 [] false = true := by decide
/-- 2.5n, `SBCS R0, R1, R2 (C = 0)`. -/
theorem test_2_5n : ends ((state [(.low 1, 0x0), (.low 2, 0x0)] 0x0000001f 0x0 [] []).withFetchWord 32 0xE0D10002)
    [(.low 0, 0xffffffff)] 0x8000001f 0x4 [] false = true := by decide
/-- 2.5o, `RSCS R0, R1, #0 (C = 1)`. -/
theorem test_2_5o : ends ((state [(.low 1, 0x1)] 0x2000001f 0x0 [] []).withFetchWord 32 0xE2F10000)
    [(.low 0, 0xffffffff)] 0x8000001f 0x4 [] false = true := by decide
/-- 2.5p, `TEQ R1, #0x80000000`. -/
theorem test_2_5p : ends ((state [(.low 1, 0x80000000)] 0x1000001f 0x0 [] []).withFetchWord 32 0xE3310102)
    [] 0x7000001f 0x4 [] false = true := by decide
/-- 2.6a, `MULS R0, R1, R2 (result bit 31 = 1, N = 0 before)`. -/
theorem test_2_6a : ends ((state [(.low 1, 0x40000000), (.low 2, 0x2)] 0x2000001f 0x0 [] []).withFetchWord 32 0xE0100291)
    [(.low 0, 0x80000000)] 0x1f 0x4 [] false = true := by decide
/-- 2.6b, `MLA R0, R1, R2, R3 (wraps)`. -/
theorem test_2_6b : ends ((state [(.low 1, 0x10000), (.low 2, 0x10000), (.low 3, 0x5)] 0x0000001f 0x0 [] []).withFetchWord 32 0xE0203291)
    [(.low 0, 0x5)] 0x1f 0x4 [] false = true := by decide
/-- 2.6f, `UMULLS R0, R1, R2, R3 (max)`. -/
theorem test_2_6f : ends ((state [(.low 2, 0xffffffff), (.low 3, 0xffffffff)] 0x0000001f 0x0 [] []).withFetchWord 32 0xE0910392)
    [(.low 0, 0x1), (.low 1, 0xfffffffe)] 0x1f 0x4 [] false = true := by decide
/-- 2.6g, `SMULLS R0, R1, R2, R3 (-1 * -1)`. -/
theorem test_2_6g : ends ((state [(.low 2, 0xffffffff), (.low 3, 0xffffffff)] 0x8000001f 0x0 [] []).withFetchWord 32 0xE0D10392)
    [(.low 0, 0x1)] 0x1f 0x4 [] false = true := by decide
/-- 2.6h, `UMLALS R0, R1, R2, R3 (to zero)`. -/
theorem test_2_6h : ends ((state [(.low 0, 0x1), (.low 1, 0xffffffff), (.low 2, 0xffffffff), (.low 3, 0x1)] 0x0000001f 0x0 [] []).withFetchWord 32 0xE0B10392)
    [(.low 0, 0x0), (.low 1, 0x0)] 0x4000001f 0x4 [] false = true := by decide
/-- 2.6k, `UMAAL R0, R1, R2, R3 (max)`. -/
theorem test_2_6k : ends ((state [(.low 0, 0xffffffff), (.low 1, 0xffffffff), (.low 2, 0xffffffff), (.low 3, 0xffffffff)] 0x0000001f 0x0 [] []).withFetchWord 32 0xE0410392)
    [] 0x1f 0x4 [] false = true := by decide
/-- 2.6l, `SMULBB R0, R1, R2 (-32768 squared)`. -/
theorem test_2_6l : ends ((state [(.low 1, 0x8000), (.low 2, 0x8000)] 0x0000001f 0x0 [] []).withFetchWord 32 0xE1600281)
    [(.low 0, 0x40000000)] 0x1f 0x4 [] false = true := by decide
/-- 2.6n, `SMLALTT R0, R1, R2, R3`. -/
theorem test_2_6n : ends ((state [(.low 2, 0xffff0000), (.low 3, 0x20000), (.low 0, 0x0), (.low 1, 0x0)] 0x0000001f 0x0 [] []).withFetchWord 32 0xE14103E2)
    [(.low 0, 0xfffffffe), (.low 1, 0xffffffff)] 0x1f 0x4 [] false = true := by decide
/-- 2.6o, `SMLAWT R0, R1, R2, R3`. -/
theorem test_2_6o : ends ((state [(.low 1, 0x10000), (.low 2, 0x30000), (.low 3, 0x1)] 0x0000001f 0x0 [] []).withFetchWord 32 0xE12032C1)
    [(.low 0, 0x4)] 0x1f 0x4 [] false = true := by decide
/-- 2.6p, `SMLABB (refused)`. -/
theorem test_2_6p : faults ((state [] 0x0000001f 0x0 [] []).withFetchWord 32 0xE1003281) (.unmodelled .smlaxy) = true := by decide
/-- 2.7a, `MRS R0, SPSR (SVC)`. -/
theorem test_2_7a : ends ((state [] 0x00000013 0x0 [] [(2, 0xf00000d3)]).withFetchWord 32 0xE14F0000)
    [(.low 0, 0xf00000d3)] 0x13 0x4 [] false = true := by decide
/-- 2.7c, `MSR CPSR_fc, R0 (User)`. -/
theorem test_2_7c : ends ((state [(.low 0, 0xf00000d3)] 0x00000010 0x0 [] []).withFetchWord 32 0xE129F000)
    [] 0xf0000010 0x4 [] false = true := by decide
/-- 2.7e, `MSR CPSR_c, #0xD3`. -/
theorem test_2_7e : ends ((state [] 0x0000001f 0x0 [] []).withFetchWord 32 0xE321F0D3)
    [] 0xd3 0x4 [] false = true := by decide
/-- 2.7f, `MSR SPSR_f, R0 (System)`. -/
theorem test_2_7f : faults ((state [(.low 0, 0xf0000000)] 0x0000001f 0x0 [] []).withFetchWord 32 0xE168F000) (.noSpsr) = true := by decide
/-- 2.8a, `LDR R0, [R1, #-4]!`. -/
theorem test_2_8a : ends ((state [(.low 1, 0x104)] 0x0000001f 0x0 [(0x100, [0xef, 0xbe, 0xad, 0xde])] []).withFetchWord 32 0xE5310004)
    [(.low 0, 0xdeadbeef), (.low 1, 0x100)] 0x1f 0x4 [] false = true := by decide
/-- 2.8b, `LDR R0, [R1, -R2, LSL #2]`. -/
theorem test_2_8b : ends ((state [(.low 1, 0x110), (.low 2, 0x4)] 0x0000001f 0x0 [(0x100, [0x34, 0x12, 0x0, 0x0])] []).withFetchWord 32 0xE7110102)
    [(.low 0, 0x1234)] 0x1f 0x4 [] false = true := by decide
/-- 2.8d, `LDR PC, [R1]`. -/
theorem test_2_8d : ends ((state [(.low 1, 0x200)] 0x0000001f 0x0 [(0x200, [0x0, 0x4, 0x0, 0x0])] []).withFetchWord 32 0xE591F000)
    [] 0x1f 0x400 [] false = true := by decide
/-- 2.8i, `STR PC, [R1] (STORED_PC_OFFSET = 12)`. -/
theorem test_2_8i : ends ((state [(.low 1, 0x200)] 0x0000001f 0x100 [] []).withFetchWord 32 0xE581F000)
    [] 0x1f 0x104 [(0x200, [0xc, 0x1, 0x0, 0x0])] false = true := by decide
/-- 2.8q, `STRB R0, [R1, #1]! (E = 1)`. -/
theorem test_2_8q : ends ((state [(.low 0, 0x1234abcd), (.low 1, 0x200)] 0x0000021f 0x0 [] []).withFetchWord 32 0xE5E10001)
    [(.low 1, 0x201)] 0x21f 0x4 [(0x201, [0xcd])] false = true := by decide
/-- 2.8r, `STRT R0, [R1], #4`. -/
theorem test_2_8r : ends ((state [(.low 0, 0x9), (.low 1, 0x200)] 0x0000001f 0x0 [] []).withFetchWord 32 0xE4A10004)
    [(.low 1, 0x204)] 0x1f 0x4 [(0x200, [0x9, 0x0, 0x0, 0x0])] false = true := by decide
/-- 2.8s, `LDRSH R0, [R1, #2]! (E = 1)`. -/
theorem test_2_8s : ends ((state [(.low 1, 0x100)] 0x0000021f 0x0 [(0x102, [0xff, 0xfe])] []).withFetchWord 32 0xE1F100F2)
    [(.low 0, 0xfffffffe), (.low 1, 0x102)] 0x21f 0x4 [] false = true := by decide
/-- 2.8t, `LDRH R0, [R1], #2 with W = 1`. -/
theorem test_2_8t : faults ((state [] 0x0000001f 0x0 [] []).withFetchWord 32 0xE0F100B2) (.unpredictable .hdtPostWriteback) = true := by decide
/-- 2.8ab, `STRH R0, [R1, -R2]`. -/
theorem test_2_8ab : ends ((state [(.low 0, 0x12345678), (.low 1, 0x204), (.low 2, 0x4)] 0x0000001f 0x0 [] []).withFetchWord 32 0xE10100B2)
    [] 0x1f 0x4 [(0x200, [0x78, 0x56])] false = true := by decide
/-- 2.8af, `SWPB R0, R0, [R1]`. -/
theorem test_2_8af : ends ((state [(.low 0, 0x1ff), (.low 1, 0x100)] 0x0000001f 0x0 [(0x100, [0x44, 0x33, 0x22, 0x11])] []).withFetchWord 32 0xE1410090)
    [(.low 0, 0x44)] 0x1f 0x4 [(0x100, [0xff])] false = true := by decide
/-- 2.9a, `STMIA R0, {R1, PC}`. -/
theorem test_2_9a : ends ((state [(.low 0, 0x200), (.low 1, 0x1)] 0x0000001f 0x100 [] []).withFetchWord 32 0xE8808002)
    [] 0x1f 0x104 [(0x200, [0x1, 0x0, 0x0, 0x0, 0xc, 0x1, 0x0, 0x0])] false = true := by decide
/-- 2.9b, `STMIA R1!, {R1, R2} (Rn lowest)`. -/
theorem test_2_9b : ends ((state [(.low 1, 0x200), (.low 2, 0x7)] 0x0000001f 0x0 [] []).withFetchWord 32 0xE8A10006)
    [(.low 1, 0x208)] 0x1f 0x4 [(0x200, [0x0, 0x2, 0x0, 0x0, 0x7, 0x0, 0x0, 0x0])] false = true := by decide
/-- 2.9f, `LDMIA R0, {R1, PC}`. -/
theorem test_2_9f : ends ((state [(.low 0, 0x200)] 0x0000001f 0x0 [(0x200, [0x5, 0x0, 0x0, 0x0]), (0x204, [0x0, 0x3, 0x0, 0x0])] []).withFetchWord 32 0xE8908002)
    [(.low 1, 0x5)] 0x1f 0x300 [] false = true := by decide
/-- 2.9k, `STMDB R0!, {R1} (R0 = 0)`. -/
theorem test_2_9k : ends ((state [(.low 1, 0x5)] 0x0000001f 0x0 [] []).withFetchWord 32 0xE9200002)
    [(.low 0, 0xfffffffc)] 0x1f 0x4 [] false = true := by decide
/-- 2.9n, `STMIA R0, {R8}^ (FIQ)`. -/
theorem test_2_9n : ends ((state [(.low 0, 0x200), (.mid 0, 0x1111), (.midFiq 0, 0x2222)] 0x000000d1 0x0 [] []).withFetchWord 32 0xE8C00100)
    [] 0xd1 0x4 [(0x200, [0x11, 0x11, 0x0, 0x0])] false = true := by decide
/-- 2.9q, `LDMIA R0, {R1, PC}^ (SVC, SPSR T = 1)`. -/
theorem test_2_9q : ends ((state [(.low 0, 0x200)] 0x00000013 0x0 [(0x200, [0x9, 0x0, 0x0, 0x0]), (0x204, [0x1, 0x3, 0x0, 0x0])] [(2, 0x3f)]).withFetchWord 32 0xE8D08002)
    [(.low 1, 0x9)] 0x3f 0x300 [] false = true := by decide
/-- 2.9r, `LDMIA R0, {R8, PC}^ (FIQ to System)`. -/
theorem test_2_9r : ends ((state [(.low 0, 0x200)] 0x000000d1 0x0 [(0x200, [0x88, 0x0, 0x0, 0x0]), (0x204, [0x0, 0x3, 0x0, 0x0])] [(0, 0x1f)]).withFetchWord 32 0xE8D08100)
    [(.midFiq 0, 0x88)] 0x1f 0x300 [] false = true := by decide
/-- 2.10a, `SWI 0 (EXIT)`. -/
theorem test_2_10a : ends ((state [] 0x0000001f 0x40 [] []).withFetchWord 32 0xEF000000)
    [] 0x1f 0x44 [] true = true := by decide
/-- 2.10c, `SWI 0x060000 (7 / -2)`. -/
theorem test_2_10c : ends ((state [(.low 0, 0x7), (.low 1, 0xfffffffe)] 0x0000001f 0x0 [] []).withFetchWord 32 0xEF060000)
    [(.low 0, 0xfffffffd), (.low 1, 0x1), (.low 3, 0x3)] 0x1f 0x4 [] false = true := by decide
/-- 2.10e, `SWI 0x080000 (Sqrt 0x10000)`. -/
theorem test_2_10e : ends ((state [(.low 0, 0x10000)] 0x0000001f 0x0 [] []).withFetchWord 32 0xEF080000)
    [(.low 0, 0x100)] 0x1f 0x4 [] false = true := by decide
/-- 2.10f, `SWI 0x7F0000 (unknown)`. -/
theorem test_2_10f : ends ((state [(.low 0, 0x1)] 0x0000001f 0x0 [] []).withFetchWord 32 0xEF7F0000)
    [] 0x1f 0x4 [] false = true := by decide
/-- 2.10j, `Undefined class, cond fails`. -/
theorem test_2_10j : ends ((state [] 0x0000001f 0x0 [] []).withFetchWord 32 0x06000010)
    [] 0x1f 0x4 [] false = true := by decide
/-- 2.10o, `Thumb B with cond 1110`. -/
theorem test_2_10o : ends ((state [] 0x0000003f 0x40 [] []).withFetchWord 16 0xDE00)
    [] 0x3f 0x42 [] false = true := by decide
/-- 2.11b, `LSR R0, R1, #0 (means #32)`. -/
theorem test_2_11b : ends ((state [(.low 1, 0x80000001)] 0x0000003f 0x0 [] []).withFetchWord 16 0x0808)
    [] 0x6000003f 0x2 [] false = true := by decide
/-- 2.11c, `ASR R0, R1, #0 (means #32)`. -/
theorem test_2_11c : ends ((state [(.low 1, 0x80000001)] 0x0000003f 0x0 [] []).withFetchWord 16 0x1008)
    [(.low 0, 0xffffffff)] 0xa000003f 0x2 [] false = true := by decide
/-- 2.11e, `ADD R0, R1, #7`. -/
theorem test_2_11e : ends ((state [(.low 1, 0x7ffffffc)] 0x0000003f 0x0 [] []).withFetchWord 16 0x1DC8)
    [(.low 0, 0x80000003)] 0x9000003f 0x2 [] false = true := by decide
/-- 2.11f, `SUB R0, R1, R2`. -/
theorem test_2_11f : ends ((state [(.low 1, 0x1), (.low 2, 0x2)] 0x0000003f 0x0 [] []).withFetchWord 16 0x1A88)
    [(.low 0, 0xffffffff)] 0x8000003f 0x2 [] false = true := by decide
/-- 2.11l, `LSR R0, R1 (R1 = 0x100)`. -/
theorem test_2_11l : ends ((state [(.low 0, 0x1), (.low 1, 0x100)] 0x2000003f 0x0 [] []).withFetchWord 16 0x40C8)
    [] 0x2000003f 0x2 [] false = true := by decide
/-- 2.11n, `ROR R0, R1 (R1 = 32)`. -/
theorem test_2_11n : ends ((state [(.low 0, 0x80000000), (.low 1, 0x20)] 0x0000003f 0x0 [] []).withFetchWord 16 0x41C8)
    [] 0xa000003f 0x2 [] false = true := by decide
/-- 2.11p, `SBC R0, R1`. -/
theorem test_2_11p : ends ((state [(.low 0, 0x5), (.low 1, 0x3)] 0x0000003f 0x0 [] []).withFetchWord 16 0x4188)
    [(.low 0, 0x1)] 0x2000003f 0x2 [] false = true := by decide
/-- 2.11r, `NEG R0, R1 (R1 = 0x80000000)`. -/
theorem test_2_11r : ends ((state [(.low 1, 0x80000000)] 0x0000003f 0x0 [] []).withFetchWord 16 0x4248)
    [(.low 0, 0x80000000)] 0x9000003f 0x2 [] false = true := by decide
/-- 2.11u, `MUL R0, R1`. -/
theorem test_2_11u : ends ((state [(.low 0, 0x10000), (.low 1, 0x10000)] 0x2000003f 0x0 [] []).withFetchWord 16 0x4348)
    [(.low 0, 0x0)] 0x6000003f 0x2 [] false = true := by decide
/-- 2.11y, `ADD PC, R0`. -/
theorem test_2_11y : ends ((state [(.low 0, 0x10)] 0x0000003f 0x100 [] []).withFetchWord 16 0x4487)
    [] 0x3f 0x114 [] false = true := by decide
/-- 2.11aa, `CMP R0, R8`. -/
theorem test_2_11aa : ends ((state [(.low 0, 0x1), (.mid 0, 0x2)] 0x0000003f 0x0 [] []).withFetchWord 16 0x4540)
    [] 0x8000003f 0x2 [] false = true := by decide
/-- 2.11ad, `BX PC at 0x100`. -/
theorem test_2_11ad : ends ((state [] 0x0000003f 0x100 [] []).withFetchWord 16 0x4778)
    [] 0x1f 0x104 [] false = true := by decide
/-- 2.11ag, `ADD R0, PC, #4 at 0x102`. -/
theorem test_2_11ag : ends ((state [] 0x0000003f 0x102 [] []).withFetchWord 16 0xA001)
    [(.low 0, 0x108)] 0x3f 0x104 [] false = true := by decide
/-- 2.11ai, `ADD SP, #-8`. -/
theorem test_2_11ai : ends ((state [] 0x0000003f 0x0 [] []).withFetchWord 16 0xB082)
    [(.sp .usr, 0x3ff8)] 0x3f 0x2 [] false = true := by decide
/-- 2.12a, `LDR R0, [PC, #4] at 0x102`. -/
theorem test_2_12a : ends ((state [] 0x0000003f 0x102 [(0x108, [0xfe, 0xca, 0x0, 0x0])] []).withFetchWord 16 0x4801)
    [(.low 0, 0xcafe)] 0x3f 0x104 [] false = true := by decide
/-- 2.12d, `LDSH R0, [R1, R2]`. -/
theorem test_2_12d : ends ((state [(.low 1, 0x100), (.low 2, 0x2)] 0x0000003f 0x0 [(0x102, [0x0, 0x80])] []).withFetchWord 16 0x5E88)
    [(.low 0, 0xffff8000)] 0x3f 0x2 [] false = true := by decide
/-- 2.12f, `LDRH R0, [R1, R2] (E = 1)`. -/
theorem test_2_12f : ends ((state [(.low 1, 0x100), (.low 2, 0x0)] 0x0000023f 0x0 [(0x100, [0x12]), (0x101, [0x34])] []).withFetchWord 16 0x5A88)
    [(.low 0, 0x1234)] 0x23f 0x2 [] false = true := by decide
/-- 2.12g, `STRH R0, [R1, R2]`. -/
theorem test_2_12g : ends ((state [(.low 0, 0xabcd1234), (.low 1, 0x100), (.low 2, 0x0)] 0x0000003f 0x0 [] []).withFetchWord 16 0x5288)
    [] 0x3f 0x2 [(0x100, [0x34, 0x12])] false = true := by decide
/-- 2.12i, `LDRB R0, [R1, #31]`. -/
theorem test_2_12i : ends ((state [(.low 1, 0x100)] 0x0000003f 0x0 [(0x11f, [0xee])] []).withFetchWord 16 0x7FC8)
    [(.low 0, 0xee)] 0x3f 0x2 [] false = true := by decide
/-- 2.12l, `PUSH {R0, LR}`. -/
theorem test_2_12l : ends ((state [(.low 0, 0x1), (.lr .usr, 0x123)] 0x0000003f 0x0 [] []).withFetchWord 16 0xB501)
    [(.sp .usr, 0x3ff8)] 0x3f 0x2 [(0x3ff8, [0x1, 0x0, 0x0, 0x0, 0x23, 0x1, 0x0, 0x0])] false = true := by decide
/-- 2.12m, `POP {R0, PC}`. -/
theorem test_2_12m : ends ((state [(.sp .usr, 0x3ff8)] 0x0000003f 0x0 [(0x3ff8, [0x1, 0x0, 0x0, 0x0]), (0x3ffc, [0x1, 0x2, 0x0, 0x0])] []).withFetchWord 16 0xBD01)
    [(.low 0, 0x1), (.sp .usr, 0x4000)] 0x3f 0x200 [] false = true := by decide
/-- 2.12n, `POP {PC} (value bit 0 = 0)`. -/
theorem test_2_12n : faults ((state [(.sp .usr, 0x3ffc)] 0x0000003f 0x0 [(0x3ffc, [0x0, 0x2, 0x0, 0x0])] []).withFetchWord 16 0xBD00) (.unpredictable .popPcInterwork) = true := by decide
/-- 2.12p, `STMIA R1!, {R1, R2} (Rb lowest)`. -/
theorem test_2_12p : ends ((state [(.low 1, 0x200), (.low 2, 0x2)] 0x0000003f 0x0 [] []).withFetchWord 16 0xC106)
    [(.low 1, 0x208)] 0x3f 0x2 [(0x200, [0x0, 0x2, 0x0, 0x0, 0x2, 0x0, 0x0, 0x0])] false = true := by decide
/-- 2.12s, `LDMIA R1!, {R0, R2}`. -/
theorem test_2_12s : ends ((state [(.low 1, 0x200)] 0x0000003f 0x0 [(0x200, [0xa, 0x0, 0x0, 0x0]), (0x204, [0xb, 0x0, 0x0, 0x0])] []).withFetchWord 16 0xC905)
    [(.low 0, 0xa), (.low 1, 0x208), (.low 2, 0xb)] 0x3f 0x2 [] false = true := by decide
/-- 2.12u, `BGT +4 (Z = 0, N = 1, V = 0)`. -/
theorem test_2_12u : ends ((state [] 0x8000003f 0x100 [] []).withFetchWord 16 0xDC02)
    [] 0x8000003f 0x102 [] false = true := by decide
/-- 2.12v, `BLT -128 words`. -/
theorem test_2_12v : ends ((state [] 0x8000003f 0x200 [] []).withFetchWord 16 0xDB80)
    [] 0x8000003f 0x104 [] false = true := by decide
/-- 2.12x, `B +2046`. -/
theorem test_2_12x : ends ((state [] 0x0000003f 0x0 [] []).withFetchWord 16 0xE3FF)
    [] 0x3f 0x802 [] false = true := by decide
/-- 2.12y, `BL prefix, negative`. -/
theorem test_2_12y : ends ((state [] 0x0000003f 0x100 [] []).withFetchWord 16 0xF7FF)
    [(.lr .usr, 0xfffff104)] 0x3f 0x102 [] false = true := by decide
/-- 2.12z, `BL suffix alone`. -/
theorem test_2_12z : ends ((state [(.lr .usr, 0x200)] 0x0000003f 0x100 [] []).withFetchWord 16 0xF800)
    [(.lr .usr, 0x103)] 0x3f 0x200 [] false = true := by decide
/-- 2.13d, `LDR R0, [R1] (unmapped)`. -/
theorem test_2_13d : ends ((state [(.low 0, 0x7), (.low 1, 0x5000)] 0x0000001f 0x0 [] []).withFetchWord 32 0xE5910000)
    [(.low 0, 0x0)] 0x1f 0x4 [] false = true := by decide

/-! ### Forms that are not admitted (30_encoding.md R132, R135; 60_exceptions.md R405) -/

/-- R15 in a field of a register-shift form (R191). -/
theorem test_illFormed_rsr :
    Instr.wellFormed (.addRsr .al false 15 0 1 .lsl 2) = false ∧ Instr.wellFormed (.addRsr .al false 0 15 1 .lsl 2) = false ∧
    Instr.wellFormed (.addRsr .al false 0 1 15 .lsl 2) = false ∧ Instr.wellFormed (.addRsr .al false 0 1 2 .lsl 15) = false ∧
    Instr.wellFormed (.cmpRsr .al 15 0 0 .lsl 2) = false ∧ Instr.wellFormed (.movRsr .al false 0 15 1 .lsl 2) = false ∧
    Instr.wellFormed (.cmpRsr .al 0 15 1 .lsl 2) = true ∧ Instr.wellFormed (.movRsr .al false 15 0 1 .lsl 2) = true ∧
    Instr.wellFormed (.addRsr .al false 14 14 14 .lsl 14) = true := by decide

/-- BLX of R15 (R184), MRS to R15 and MSR from R15 (R250, R251). -/
theorem test_illFormed_pc :
    Instr.wellFormed (.blxReg .al 15) = false ∧ Instr.wellFormed (.mrsCpsr .al 15) = false ∧
    Instr.wellFormed (.mrsSpsr .al 15) = false ∧ Instr.wellFormed (.msrRegCpsr .al 8 15) = false ∧
    Instr.wellFormed (.msrRegSpsr .al 8 15) = false ∧ Instr.wellFormed (.bx .al 15) = true := by decide

/-- The multiplies (R231 to R243). -/
theorem test_illFormed_multiply :
    Instr.wellFormed (.mul .al false 0 1 0) = false ∧ Instr.wellFormed (.mul .al false 15 1 0) = false ∧
    Instr.wellFormed (.mla .al false 0 15 2 1) = false ∧ Instr.wellFormed (.umull .al false 0 0 3 2) = false ∧
    Instr.wellFormed (.umull .al false 0 1 3 1) = false ∧ Instr.wellFormed (.umull .al false 0 1 3 0) = false ∧
    Instr.wellFormed (.umaal .al 0 0 3 2) = false ∧ Instr.wellFormed (.umaal .al 0 1 3 0) = true ∧
    Instr.wellFormed (.smlaxy .al 0 1 2 false false 3) = false ∧ Instr.wellFormed (.smulwy .al 0 1 2 false 15) = false ∧
    Instr.wellFormed (.smlawy .al 0 1 2 false 15) = false ∧ Instr.wellFormed (.smulxy .al 15 1 false false 2) = false ∧
    Instr.wellFormed (.smlalxy .al 1 1 2 false false 3) = false ∧ Instr.wellFormed (.mul .al false 0 0 1) = true := by decide

/-- The single and halfword transfers, and swap (R260 to R276). -/
theorem test_illFormed_single :
    Instr.wellFormed (.ldrImmPre .al true true 15 0 4) = false ∧ Instr.wellFormed (.ldrImmPre .al true true 1 1 4) = false ∧
    Instr.wellFormed (.ldrImmPre .al true false 15 15 4) = true ∧ Instr.wellFormed (.ldrRegPre .al true false 1 0 0 .lsl 15) = false ∧
    Instr.wellFormed (.strImmPost .al true 15 0 4) = false ∧ Instr.wellFormed (.strtImm .al true 1 1 4) = false ∧
    Instr.wellFormed (.ldrbImmPre .al true false 1 15 0) = false ∧ Instr.wellFormed (.strbImmPre .al true false 1 15 0) = false ∧
    Instr.wellFormed (.ldrhImm .al false true true 1 0 0 2) = false ∧ Instr.wellFormed (.ldrhImm .al true true true 15 0 0 2) = false ∧
    Instr.wellFormed (.ldrhImm .al true true true 1 1 0 2) = false ∧ Instr.wellFormed (.ldrhReg .al true true false 1 0 15) = false ∧
    Instr.wellFormed (.ldrsbImm .al true true false 1 15 0 0) = false ∧ Instr.wellFormed (.strhImm .al true true false 1 15 0 0) = false ∧
    Instr.wellFormed (.swp .al 0 0 1) = false ∧ Instr.wellFormed (.swp .al 1 0 1) = false ∧ Instr.wellFormed (.swp .al 15 0 1) = false ∧
    Instr.wellFormed (.swpb .al 2 1 1) = true := by decide

/-- The block transfers (R290 to R294). -/
theorem test_illFormed_block :
    Instr.wellFormed (.stmia .al false 0 0) = false ∧ Instr.wellFormed (.ldmia .al false 15 1) = false ∧
    Instr.wellFormed (.stmia .al true 1 0b011) = false ∧ Instr.wellFormed (.stmia .al true 1 0b110) = true ∧
    Instr.wellFormed (.ldmia .al true 0 0b011) = false ∧ Instr.wellFormed (.ldmia .al false 0 0b011) = true ∧
    Instr.wellFormed (.stmiaUsr .al true 0 0x2000) = false ∧ Instr.wellFormed (.ldmiaRst .al true 0 0x8001) = false := by decide

/-- The Thumb forms (R345, R348, R352, R377 to R380). -/
theorem test_illFormed_thumb :
    Instr.wellFormed (.mulT 0 0) = false ∧ Instr.wellFormed (.addHiT false false 1 0) = false ∧
    Instr.wellFormed (.cmpHiT false false 1 0) = false ∧ Instr.wellFormed (.movHiT false false 1 0) = false ∧
    Instr.wellFormed (.bxH1T false 1) = false ∧ Instr.wellFormed (.pushT false 0) = false ∧ Instr.wellFormed (.popT false 0) = false ∧
    Instr.wellFormed (.pushT true 0) = true ∧ Instr.wellFormed (.stmiaT 1 0) = false ∧ Instr.wellFormed (.stmiaT 1 0b011) = false ∧
    Instr.wellFormed (.ldmiaT 1 0) = false ∧ Instr.wellFormed (.ldmiaT 0 1) = false := by decide

/-! ### Words written out from the encodings of 30_encoding.md -/

/-- Data processing and branches: cond 1110, then the fields of R107 to R109, R105. -/
theorem test_decode_dataProcessing :
    decodeArm (0b1110#4 ++ 0b001#3 ++ 0b0100#4 ++ 1#1 ++ 0b0010#4 ++ 0b0001#4 ++ 0b0011#4 ++ 0b00000101#8) =
      .ok (.addImm .al true 2 1 3 5) ∧
    decodeArm (0b0000#4 ++ 0b000#3 ++ 0b0001#4 ++ 0#1 ++ 0b0010#4 ++ 0b0001#4 ++ 0b00011#5 ++ 0b10#2 ++ 0#1 ++ 0b0100#4) =
      .ok (.eorRsi .eq false 2 1 3 .asr 4) ∧
    decodeArm (0b1110#4 ++ 0b000#3 ++ 0b1010#4 ++ 1#1 ++ 0b0010#4 ++ 0b0000#4 ++ 0b0011#4 ++ 0#1 ++ 0b11#2 ++ 1#1 ++ 0b0100#4) =
      .ok (.cmpRsr .al 2 0 3 .ror 4) ∧
    decodeArm (0b0001#4 ++ 0b101#3 ++ 1#1 ++ 0x000003#24) = .ok (.bl .ne 3) := by
  refine ⟨rfl, rfl, rfl, rfl⟩

/-- The ignored field of a register-shift form, all ones: the word executes as with any other value there (R104, R107; 42_arm_data_processing.md
R193; 93_implementation_defined.md I16). MOV R0, R1, LSL R2 with 1111 in Rn; CMP R0, R1, LSL R2 with 1111 in Rd. -/
theorem test_ignored_field :
    ends ((state [(.low 1, 3), (.low 2, 4)] 0x1f 0x0 [] []).withFetchWord 32 0xE1AF0211) [(.low 0, 0x30)] 0x1f 0x4 [] false = true ∧
    ends ((state [(.low 0, 0x30), (.low 1, 3), (.low 2, 4)] 0x1f 0x0 [] []).withFetchWord 32 0xE150F211) [] 0x6000001f 0x4 [] false = true := by
  decide

/-- Multiplies, status transfers, swap (R111 to R116). -/
theorem test_decode_multiply :
    decodeArm (0b1110#4 ++ 0b0000100#7 ++ 1#1 ++ 0b0001#4 ++ 0b0010#4 ++ 0b0011#4 ++ 0b1001#4 ++ 0b0100#4) =
      .ok (.umull .al true 1 2 3 4) ∧
    decodeArm (0b1110#4 ++ 0b00010110#8 ++ 0b0001#4 ++ 0b0000#4 ++ 0b0011#4 ++ 1#1 ++ 1#1 ++ 0#1 ++ 0#1 ++ 0b0100#4) =
      .ok (.smulxy .al 1 3 true false 4) ∧
    decodeArm (0b1110#4 ++ 0b00010110#8 ++ 0b1001#4 ++ 0xF00#12 ++ 0b0101#4) = .ok (.msrRegSpsr .al 9 5) ∧
    decodeArm (0b1110#4 ++ 0b00010100#8 ++ 0b0001#4 ++ 0b0010#4 ++ 0b0000#4 ++ 0b1001#4 ++ 0b0011#4) = .ok (.swpb .al 1 2 3) := by
  refine ⟨rfl, rfl, rfl, rfl⟩

/-- Single, halfword and block transfers, SWI (R117 to R121). -/
theorem test_decode_transfer :
    decodeArm (0b1110#4 ++ 0b011#3 ++ 1#1 ++ 0#1 ++ 1#1 ++ 1#1 ++ 1#1 ++ 0b0001#4 ++ 0b0010#4 ++ 0b00100#5 ++ 0b01#2 ++ 0#1 ++ 0b0011#4) =
      .ok (.ldrbRegPre .al false true 1 2 4 .lsr 3) ∧
    decodeArm (0b1110#4 ++ 0b000#3 ++ 1#1 ++ 1#1 ++ 0#1 ++ 0#1 ++ 0#1 ++ 0b0001#4 ++ 0b0010#4 ++ 0b0000#4 ++ 0b1011#4 ++ 0b0011#4) =
      .ok (.strhReg .al true true false 1 2 3) ∧
    decodeArm (0b1110#4 ++ 0b100#3 ++ 1#1 ++ 0#1 ++ 0#1 ++ 1#1 ++ 0#1 ++ 0b1101#4 ++ 0x4003#16) = .ok (.stmdb .al true 13 0x4003) ∧
    decodeArm (0b1110#4 ++ 0b1111#4 ++ 0x060000#24) = .ok (.swi .al 0x060000) := by
  refine ⟨rfl, rfl, rfl, rfl⟩

/-- Thumb data operations (R124, R129). -/
theorem test_decode_thumbData :
    decodeThumb (0b00010#5 ++ 0b00100#5 ++ 0b001#3 ++ 0b010#3) = .ok (.asrImmT 4 1 2) ∧
    decodeThumb (0b0001111#7 ++ 0b101#3 ++ 0b001#3 ++ 0b010#3) = .ok (.subImm3T 5 1 2) ∧
    decodeThumb (0b010000#6 ++ 0b1110#4 ++ 0b001#3 ++ 0b010#3) = .ok (.bicT 1 2) ∧
    decodeThumb (0b010001#6 ++ 0b10#2 ++ 1#1 ++ 0#1 ++ 0b001#3 ++ 0b111#3) = .ok (.movHiT true false 1 7) ∧
    decodeThumb (0b10110000#8 ++ 1#1 ++ 0b0000010#7) = .ok (.subSpimmT 2) := by
  refine ⟨rfl, rfl, rfl, rfl, rfl⟩

/-- Thumb memory operations and branches. -/
theorem test_decode_thumbMemory :
    decodeThumb (0b0101#4 ++ 0b111#3 ++ 0b011#3 ++ 0b001#3 ++ 0b010#3) = .ok (.ldshRegT 3 1 2) ∧
    decodeThumb (0b01111#5 ++ 0b11111#5 ++ 0b001#3 ++ 0b010#3) = .ok (.ldrbImmT 31 1 2) ∧
    decodeThumb (0b1011110#7 ++ 1#1 ++ 0b00000001#8) = .ok (.popT true 1) ∧
    decodeThumb (0b11001#5 ++ 0b001#3 ++ 0b00000101#8) = .ok (.ldmiaT 1 5) ∧
    decodeThumb (0b1101#4 ++ 0b1011#4 ++ 0x80#8) = .ok (.bltT 0x80) ∧
    decodeThumb (0b11110#5 ++ 0x7FF#11) = .ok (.blHiT 0x7FF) := by
  refine ⟨rfl, rfl, rfl, rfl, rfl, rfl⟩

/-- The decoders refuse the places of no instruction by name (R106, R130). -/
theorem test_decode_refuses :
    decodeArm 0xE16F0F11 = .error (.undefinedArm 0xE16F0F11) ∧ decodeArm 0xE1020051 = .error (.undefinedArm 0xE1020051) ∧
    decodeThumb 0xBE00 = .error (.undefinedThumb 0xBE00) ∧ decodeThumb 0xDE00 = .error (.undefinedThumb 0xDE00) := by
  refine ⟨rfl, rfl, rfl, rfl⟩

/-! ### The memory's form, and creation -/

theorem test_reset_memory_wf : State.reset.mem.wf := by decide
theorem test_reset_inv : State.reset.Inv := by decide
/-- Writing the byte an unlisted address reads as removes the entry. -/
theorem test_write_zero_removes : Memory.write (Memory.write [(3, 7)] 5 9) 3 0 = [(5, 9)] := by decide
/-- The first step from creation is a failed ANDEQ (95_test_vectors.md 2.15). -/
theorem test_first_step : ends State.reset [] 0x1F 4 [] false = true := by decide

/-! ### Witnesses: for each statement with hypotheses, a state and operands that meet them -/

/-- System mode, ARM state, pc 0, 1 KiB of memory. -/
def base : State := State.create { Config.reset with memSize := 0x400 }
def usr : State := { base with cpsr := 0x10 }
/-- SVC mode; its SPSR is `v`. -/
def svc (v : Word) : State := { base with cpsr := 0x13, spsr := base.spsr.set 2 v }
def thumbed : State := base.setThumb true
def plain (s : State) : State := { s with cfg := { s.cfg with misalign := .plainBytes } }
def arm7 (s : State) : State := { s with cfg := { s.cfg with misalign := .arm7 } }
/-- R1 is `a`, R2 is `b`. -/
def regs12 (s : State) (a b : Word) : State := (s.writeReg 1 a).writeReg 2 b
/-- A word in memory, little-endian bytes. -/
def withWord (s : State) (a : Nat) (v : Word) : State := { s with mem := Memory.writeBytes s.mem a (wordBytes s v) }

theorem witness_StepRunsDecodedInstruction :
    (base.halted = false ∧ base.fetch = .ok (.arm 0, base) ∧ decode (.arm 0) = .ok (.andRsi .eq false 0 0 0 .lsl 0)) ∧
    (({ base with pc := 0x3FC }).thumb = false ∧ ({ base with pc := 0x3FC }).pc.toNat % 4 = 0 ∧
      inMemory { base with pc := 0x3FC } 0x3FC 4 ∧ decodeArm (wordAt { base with pc := 0x3FC } 0x3FC) = .ok (.andRsi .eq false 0 0 0 .lsl 0)) ∧
    (({ thumbed with pc := 0x3FE }).thumb = true ∧ ({ thumbed with pc := 0x3FE }).pc.toNat % 2 = 0 ∧
      inMemory { thumbed with pc := 0x3FE } 0x3FE 2 ∧ decodeThumb (halfAt { thumbed with pc := 0x3FE } 0x3FE) = .ok (.lslImmT 0 0 0)) ∧
    ({ base with halted := true }).halted = true ∧
    ({ base with pc := 2 }).pc.toNat % (if ({ base with pc := 2 }).thumb then 2 else 4) ≠ 0 ∧
    ({ thumbed with pc := 1 }).pc.toNat % (if ({ thumbed with pc := 1 }).thumb then 2 else 4) ≠ 0 := by
  refine ⟨⟨rfl, rfl, rfl⟩, ⟨rfl, rfl, ⟨by decide, by decide⟩, rfl⟩, ⟨rfl, rfl, ⟨by decide, by decide⟩, rfl⟩, rfl, by decide, by decide⟩

theorem witness_UndefinedWordsOnlyAdvance :
    ((base.withFetchWord 32 0x06000010).halted = false ∧
      (base.withFetchWord 32 0x06000010).fetch = .ok (.arm 0x06000010, base.withFetchWord 32 0x06000010) ∧
      decode (.arm 0x06000010) = .error (.undefinedArm 0x06000010)) ∧
    ((0x06000010 : Word).extractLsb' 25 3 = 3#3 ∧ (0x06000010 : Word).getLsbD 4 = true) ∧
    ((0xFFFFFFFF : Word).extractLsb' 25 3 ≠ 6#3 ∧ (0xED900000 : Word).extractLsb' 25 3 = 6#3 ∧
      (0xEE010F10 : Word).extractLsb' 24 4 = 14#4) ∧
    ((0xE1C100D0 : Word).extractLsb' 25 3 = 0#3 ∧ (0xE1C100D0 : Word).getLsbD 20 = false ∧ (0xE1C100D0 : Word).getLsbD 7 = true ∧
      (0xE1C100D0 : Word).getLsbD 6 = true ∧ (0xE1C100D0 : Word).getLsbD 4 = true) ∧
    (0xDE00 : Half).extractLsb' 8 8 = 0xDE#8 ∧ (0xE800 : Half).extractLsb' 11 5 = 0x1D#5 := by
  refine ⟨⟨rfl, rfl, rfl⟩, by decide, by decide, by decide, by decide, by decide⟩

theorem witness_TableRowsAreDisjoint :
    (∀ r ∈ armRows, r.accepts 0xE6000010 = false) ∧ (∀ r ∈ thumbRows, r.accepts 0xDE00 = false) := by
  have h1 : armRows.all (fun r => !r.accepts 0xE6000010) = true := by rfl
  have h2 : thumbRows.all (fun r => !r.accepts 0xDE00) = true := by rfl
  simp only [List.all_eq_true, Bool.not_eq_true'] at h1 h2
  exact ⟨h1, h2⟩

theorem witness_FailedConditionOnlyAdvances :
    Instr.cond? (.movImm .eq false 0 0 1) = some .eq ∧ base.condPassed .eq = false ∧
    Instr.cond? (.blxReg .nv 15) = some .nv ∧ base.condPassed .nv = false := by decide

theorem witness_FailedConditionOnlyAdvances_step :
    ((base.withFetchWord 32 0x06000010).halted = false ∧
      (base.withFetchWord 32 0x06000010).fetch = .ok (.arm 0x06000010, base.withFetchWord 32 0x06000010) ∧
      (base.withFetchWord 32 0x06000010).condPassed (Cond.ofBits ((0x06000010 : Word).extractLsb' 28 4)) = false) ∧
    ((base.withFetchWord 32 0xFEDCBA98).halted = false ∧
      (base.withFetchWord 32 0xFEDCBA98).fetch = .ok (.arm 0xFEDCBA98, base.withFetchWord 32 0xFEDCBA98) ∧
      (base.withFetchWord 32 0xFEDCBA98).condPassed (Cond.ofBits ((0xFEDCBA98 : Word).extractLsb' 28 4)) = false) := by
  refine ⟨⟨rfl, rfl, rfl⟩, ⟨rfl, rfl, rfl⟩⟩

theorem witness_IllFormedFormsFault :
    (Instr.wellFormed (.mul .al false 0 1 0) = false ∧ Instr.cond? (.mul .al false 0 1 0) = some .al ∧ base.condPassed .al = true) ∧
    (Instr.wellFormed (.mulT 0 0) = false ∧ Instr.cond? (.mulT 0 0) = none) ∧
    (Instr.wellFormed (.stmiaUsr .al false 0 1) = true ∧ (svc 0).spsr?.isSome = true) := by decide

theorem witness_ShifterResults : (0 < 1 ∧ 0 < 32 ∧ 0 < 255) ∧ (1 : BitVec 5) ≠ 0 ∧ (31 : BitVec 5) ≠ 0 := by decide

theorem witness_DataProcessingWritesRegister :
    base.condPassed .al = true ∧ (14 : Reg) ≠ 15 ∧ operandOk (.imm 15 255) (dpNamed .add 15 14) = true ∧
    operandOk (.rsi 31 .ror 15) (dpNamed .add 15 14) = true ∧ operandOk (.rsr 14 .ror 14) (dpNamed .add 14 14) = true ∧
    operandOk (.rsr 14 .ror 14) (dpNamed .mvn 15 14) = true := by decide

theorem witness_DataProcessingWritesPc :
    base.condPassed .al = true ∧ operandOk (.imm 0 4) (dpNamed .add 15 15) = true ∧ operandOk (.rsi 0 .lsl 14) (dpNamed .mov 0 15) = true ∧
    operandOk (.rsr 15 .lsl 0) (dpNamed .add 0 0) = false ∧ operandOk (.rsr 0 .lsl 15) (dpNamed .mov 0 0) = false ∧
    operandOk (.rsr 0 .lsl 0) (dpNamed .add 15 0) = false ∧ operandOk (.rsr 0 .lsl 0) (dpNamed .mov 0 15) = false ∧
    operandOk (.rsr 15 .lsl 0) [0] = false ∧ operandOk (.rsr 0 .lsl 0) [15] = false := by decide

theorem witness_DataProcessingRestoresCpsr :
    base.condPassed .al = true ∧ operandOk (.imm 0 4) (dpNamed .sub 14 15) = true ∧ base.spsr? = none ∧ usr.spsr? = none ∧
    ((svc 0).condPassed .al = true ∧ (svc 0).spsr? = some 2 ∧ modeOf (((svc 0).spsr[2]).extractLsb' 0 5) = none) ∧
    ((svc 0x3F).condPassed .al = true ∧ (svc 0x3F).spsr? = some 2 ∧ (modeOf (((svc 0x3F).spsr[2]).extractLsb' 0 5)).isSome = true) := by
  decide

theorem witness_CompareWritesFlags :
    base.condPassed .al = true ∧ operandOk (.imm 0 5) [15] = true ∧ operandOk (.rsr 14 .lsl 14) [14] = true := by decide

theorem witness_BranchTargets :
    base.condPassed .al = true ∧ base.pc.toNat % 4 = 0 ∧ ({ base with pc := 0xFFFFFFFC }).pc.toNat % 4 = 0 := by decide

theorem witness_BranchExchange : base.condPassed .al = true ∧ (14 : Reg) ≠ 15 := by decide

theorem witness_MultiplyResults :
    base.condPassed .al = true ∧ Instr.wellFormed (.mul .al true 14 14 13) = true ∧ Instr.wellFormed (.mla .al true 14 14 14 13) = true := by
  decide

theorem witness_LongMultiplyResults :
    base.condPassed .al = true ∧ ∀ op : LongMulOp, Instr.wellFormed (.longMul op .al true 14 13 14 12) = true := by
  refine ⟨by decide, fun op => by cases op <;> decide⟩

theorem witness_AccumulatePairResults :
    base.condPassed .al = true ∧ Instr.wellFormed (.umaal .al 14 13 14 13) = true ∧
    Instr.wellFormed (.smlalxy .al 14 13 14 true true 13) = true := by decide

theorem witness_HalfwordMultiplyResults :
    base.condPassed .al = true ∧ Instr.wellFormed (.smlawy .al 14 14 14 true 14) = true ∧
    Instr.wellFormed (.smulxy .al 14 14 true true 14) = true := by decide

theorem witness_RefusedFormsStop : base.condPassed .al = true := by decide

theorem witness_MrsReadsStatus :
    base.condPassed .al = true ∧ (14 : Reg) ≠ 15 ∧ base.spsr? = none ∧ (svc 0x3F).condPassed .al = true ∧ (svc 0x3F).spsr? = some 2 := by
  decide

/-- 95_test_vectors.md 2.7c, 2.7d, 2.7e: User mode, an illegal mode, a legal one. -/
theorem witness_MsrWritesCpsr :
    (usr.condPassed .al = true ∧ ∀ i, i < 32 → (0xF0000010 : Word).getLsbD i =
      if ((9 : BitVec 4).getLsbD (i / 8) && (!usr.isUser || i / 8 == 3)) then (0xF00000D3 : Word).getLsbD i else usr.cpsr.getLsbD i) ∧
    (base.condPassed .al = true ∧ (∀ i, i < 32 → (0 : Word).getLsbD i =
      if ((1 : BitVec 4).getLsbD (i / 8) && (!base.isUser || i / 8 == 3)) then (0 : Word).getLsbD i else base.cpsr.getLsbD i)) ∧
    ((14 : Reg) ≠ 15 ∧ (0 : Word) = base.readReg 14) ∧
    ((∀ i, i < 32 → (0xD3 : Word).getLsbD i =
      if ((1 : BitVec 4).getLsbD (i / 8) && (!base.isUser || i / 8 == 3)) then (0xD3 : Word).getLsbD i else base.cpsr.getLsbD i) ∧
      (0xD3 : Word) = (immOperand 0 0xD3 base.flagC).1) := by decide

theorem witness_MsrWritesSpsr :
    ((svc 0x3F).condPassed .al = true ∧ (svc 0x3F).spsr? = some 2 ∧ (∀ i, i < 32 → (0xF000003F : Word).getLsbD i =
      if (8 : BitVec 4).getLsbD (i / 8) then (0xF0000000 : Word).getLsbD i else ((svc 0x3F).spsr[2]).getLsbD i)) ∧
    (0xF0000000 : Word) = (immOperand 2 0x0F (svc 0x3F).flagC).1 ∧
    ((14 : Reg) ≠ 15 ∧ (0xF0000000 : Word) = (((svc 0x3F).writeReg 14 0xF0000000).readReg 14)) ∧
    base.condPassed .al = true ∧ base.spsr? = none := by decide

/-- The last word of memory, and R15 loaded with an aligned and with a misaligned word. -/
theorem witness_LdrLoadsWord :
    (Instr.wellFormed (.ldr .post .al true 1 0 (.imm 4)) = true ∧ (regs12 base 0x3FC 0).condPassed .al = true ∧
      inMemory (regs12 base 0x3FC 0) (sdtAddr (regs12 base 0x3FC 0) .post true 1 (.imm 4)) 4 ∧
      (sdtAddr (regs12 base 0x3FC 0) .post true 1 (.imm 4)).toNat % 4 = 0 ∧ (0 : Reg) ≠ 15) ∧
    (Instr.wellFormed (.ldr (.pre true) .al false 1 15 (.reg 2 .lsl 2)) = true ∧
      inMemory (regs12 base 0x110 4) (sdtAddr (regs12 base 0x110 4) (.pre true) false 1 (.reg 2 .lsl 2)) 4 ∧
      (wordAt (withWord base 0x100 0x400) 0x100).toNat % 4 = 0 ∧ (wordAt (withWord base 0x100 0x402) 0x100).toNat % 4 ≠ 0) ∧
    Instr.wellFormed (.ldr .t .al true 1 0 (.imm 4095)) = true := by
  refine ⟨⟨by decide, by decide, ⟨by decide, by decide⟩, by decide, by decide⟩, ⟨by decide, ⟨by decide, by decide⟩, by decide, by decide⟩, by decide⟩

theorem witness_NarrowLoadsExtend :
    (Instr.wellFormed (.ldrb .t .al true 1 0 (.imm 1)) = true ∧ (regs12 base 0x3FF 0).condPassed .al = true ∧
      inMemory (regs12 base 0x3FF 0) (sdtAddr (regs12 base 0x3FF 0) .t true 1 (.imm 1)) 1) ∧
    (∀ k : HalfLoad, Instr.wellFormed (.halfLoad k .al true true true 1 0 (.reg 2)) = true) ∧
    (inMemory (regs12 base 0x3FC 2) (halfAddr (regs12 base 0x3FC 2) true true 1 (.reg 2)) 2 ∧
      (halfAddr (regs12 base 0x3FC 2) true true 1 (.reg 2)).toNat % 2 = 0) ∧
    inMemory (regs12 base 0x3FD 2) (halfAddr (regs12 base 0x3FD 2) true true 1 (.reg 2)) 1 := by
  refine ⟨⟨by decide, by decide, ⟨by decide, by decide⟩⟩, fun k => by cases k <;> decide, ⟨⟨by decide, by decide⟩, by decide⟩, ⟨by decide, by decide⟩⟩

theorem witness_StrStoresWord :
    (Instr.wellFormed (.str .post .al true 1 0 (.imm 4)) = true ∧ (regs12 base 0x3FC 0).condPassed .al = true ∧
      inMemory (regs12 base 0x3FC 0) (sdtAddr (regs12 base 0x3FC 0) .post true 1 (.imm 4)) 4 ∧
      (sdtAddr (regs12 base 0x3FC 0) .post true 1 (.imm 4)).toNat % 4 = 0) ∧
    Instr.wellFormed (.str (.pre false) .al true 1 15 (.imm 0)) = true := by
  refine ⟨⟨by decide, by decide, ⟨by decide, by decide⟩, by decide⟩, by decide⟩

theorem witness_NarrowStoresTruncate :
    (Instr.wellFormed (.strb .post .al true 1 0 (.imm 1)) = true ∧ (regs12 base 0x3FF 0).condPassed .al = true ∧
      inMemory (regs12 base 0x3FF 0) (sdtAddr (regs12 base 0x3FF 0) .post true 1 (.imm 1)) 1) ∧
    (Instr.wellFormed (.strh .al true false false 1 0 (.reg 2)) = true ∧
      inMemory (regs12 base 0x400 2) (halfAddr (regs12 base 0x400 2) true false 1 (.reg 2)) 2 ∧
      (halfAddr (regs12 base 0x400 2) true false 1 (.reg 2)).toNat % 2 = 0) := by
  refine ⟨⟨by decide, by decide, ⟨by decide, by decide⟩⟩, by decide, ⟨by decide, by decide⟩, by decide⟩

theorem witness_SwapExchanges :
    Instr.wellFormed (.swp .al 1 2 2) = true ∧ (regs12 base 0x3FC 7).condPassed .al = true ∧
    inMemory (regs12 base 0x3FC 7) ((regs12 base 0x3FC 7).readReg 1) 4 ∧ ((regs12 base 0x3FC 7).readReg 1).toNat % 4 = 0 ∧
    inMemory (regs12 base 0x3FF 7) ((regs12 base 0x3FF 7).readReg 1) 1 := by
  refine ⟨by decide, by decide, ⟨by decide, by decide⟩, by decide, ⟨by decide, by decide⟩⟩

theorem witness_RegisterListOrder : 16 ≤ 16 ∧ 8 ≤ 16 := by decide

theorem witness_StmStoresRegisters :
    Instr.wellFormed (.stm .ia .al true 1 0x8006) = true ∧ (regs12 base 0x3F4 7).condPassed .al = true ∧
    inMemory (regs12 base 0x3F4 7) (blockLow .ia ((regs12 base 0x3F4 7).readReg 1) (regsOf (0x8006 : BitVec 16)).length)
      (4 * (regsOf (0x8006 : BitVec 16)).length) ∧
    (blockLow .ia ((regs12 base 0x3F4 7).readReg 1) (regsOf (0x8006 : BitVec 16)).length).toNat % 4 = 0 ∧
    inMemory (regs12 base 0x400 7) (blockLow .db ((regs12 base 0x400 7).readReg 1) 16) (4 * 16) := by
  refine ⟨by decide, by decide, ⟨by decide, by decide⟩, by decide, ⟨by decide, by decide⟩⟩

/-- R15 is not loaded; it is loaded with an aligned word; with a misaligned one. -/
theorem witness_LdmLoadsRegisters :
    (Instr.wellFormed (.ldm .da .al true 1 0x4001) = true ∧ (regs12 base 0x3FC 7).condPassed .al = true ∧
      inMemory (regs12 base 0x3FC 7) (blockLow .da ((regs12 base 0x3FC 7).readReg 1) (regsOf (0x4001 : BitVec 16)).length) (4 * 2) ∧
      (blockLow .da ((regs12 base 0x3FC 7).readReg 1) (regsOf (0x4001 : BitVec 16)).length).toNat % 4 = 0 ∧
      (15 : Reg) ∉ regsOf (0x4001 : BitVec 16)) ∧
    ((15 : Reg) ∈ regsOf (0x8001 : BitVec 16) ∧ (wordAt (withWord base 0x3FC 0x300) 0x3FC).toNat % 4 = 0) ∧
    (wordAt (withWord base 0x3FC 0x301) 0x3FC).toNat % 4 ≠ 0 := by
  refine ⟨⟨by decide, by decide, ⟨by decide, by decide⟩, by decide, by decide⟩, by decide, by decide⟩

theorem witness_StmUserStoresUserRegisters :
    (base.condPassed .al = true ∧ base.spsr? = none) ∧
    ((regs12 (svc 0x1F) 0x3FC 7).condPassed .al = true ∧ (regs12 (svc 0x1F) 0x3FC 7).spsr?.isSome = true ∧
      Instr.wellFormed (.stmUsr .ia .al false 1 0x2000) = true ∧
      inMemory (regs12 (svc 0x1F) 0x3FC 7) (blockLow .ia ((regs12 (svc 0x1F) 0x3FC 7).readReg 1) (regsOf (0x2000 : BitVec 16)).length) 4 ∧
      (blockLow .ia ((regs12 (svc 0x1F) 0x3FC 7).readReg 1) (regsOf (0x2000 : BitVec 16)).length).toNat % 4 = 0) := by
  refine ⟨by decide, by decide, by decide, by decide, ⟨by decide, by decide⟩, by decide⟩

/-- A mode without SPSR; an illegal saved mode; a legal one, with R15 out of the list, with T = 1, and with T = 0 and an aligned word. -/
theorem witness_LdmRestoreReturns :
    (base.condPassed .al = true ∧ base.spsr? = none) ∧
    ((regs12 (svc 0) 0x3F8 7).spsr? = some 2 ∧ (regs12 (svc 0) 0x3F8 7).condPassed .al = true ∧
      Instr.wellFormed (.ldmRst .ia .al true 1 0x8001) = true ∧
      inMemory (regs12 (svc 0) 0x3F8 7) (blockLow .ia ((regs12 (svc 0) 0x3F8 7).readReg 1) 2) 8 ∧
      (blockLow .ia ((regs12 (svc 0) 0x3F8 7).readReg 1) 2).toNat % 4 = 0 ∧ (regsOf (0x8001 : BitVec 16)).length = 2 ∧
      modeOf (((regs12 (svc 0) 0x3F8 7).spsr[2]).extractLsb' 0 5) = none) ∧
    ((modeOf ((0x1F : Word).extractLsb' 0 5)).isSome = true ∧ (15 : Reg) ∉ regsOf (0x0001 : BitVec 16)) ∧
    ((modeOf ((0x3F : Word).extractLsb' 0 5)).isSome = true ∧ (0x3F : Word).getLsbD 5 = true) ∧
    (wordAt (withWord base 0x3FC 0x300) 0x3FC).toNat % 4 = 0 := by
  refine ⟨by decide, ⟨by decide, by decide, by decide, ⟨by decide, by decide⟩, by decide, by decide, by decide⟩, by decide, by decide, by decide⟩

/-- Each service under the comment-field convention; DIV by zero, -7 by 2, and the corner -2^31 by -1; the roots of 2^32 - 1 and 0. -/
theorem witness_SwiServices :
    base.cfg.services.Nodup ∧ base.condPassed .al = true ∧
    (serviceIs base (.swi .al 0x060000) 6 ∧ base.readReg 1 = 0) ∧ serviceIs base (.swiT 6) base.cfg.swiDiv ∧
    ((regs12 (base.writeReg 0 0xFFFFFFF9) 2 0).readReg 1 ≠ 0 ∧
      ((regs12 (base.writeReg 0 0xFFFFFFF9) 2 0).readReg 0).toInt = (-3) * ((regs12 (base.writeReg 0 0xFFFFFFF9) 2 0).readReg 1).toInt + (-1) ∧
      (-1 : Int).natAbs < ((regs12 (base.writeReg 0 0xFFFFFFF9) 2 0).readReg 1).toInt.natAbs ∧
      0 ≤ ((regs12 (base.writeReg 0 0xFFFFFFF9) 2 0).readReg 0).toInt * (-1)) ∧
    ((0x80000000 : Word).toInt = 2147483648 * (0xFFFFFFFF : Word).toInt + 0 ∧ (0 : Int).natAbs < (0xFFFFFFFF : Word).toInt.natAbs) ∧
    (serviceIs base (.swi .al 0x000000) base.cfg.swiExit ∧ serviceIs base (.swi .al 0x080000) base.cfg.swiSqrt ∧
      serviceIs base (.swi .al 0x090000) base.cfg.swiAtan ∧ serviceIs base (.swi .al 0x0A0000) base.cfg.swiAtan2 ∧
      serviceIs base (.swi .al 0x0E0000) base.cfg.swiBgAffine) ∧
    (65535 * 65535 ≤ (0xFFFFFFFF : Word).toNat ∧ (0xFFFFFFFF : Word).toNat < (65535 + 1) * (65535 + 1)) ∧
    (0 * 0 ≤ (0 : Word).toNat ∧ (0 : Word).toNat < (0 + 1) * (0 + 1)) ∧
    (serviceIs base (.swi .al 0x7F0000) 0x7F ∧ (0x7F : Word) ∉ base.cfg.services) := by
  refine ⟨by decide, by decide, ⟨⟨by decide, rfl⟩, by decide⟩, by rfl, by decide, by decide,
    ⟨⟨by decide, rfl⟩, ⟨by decide, rfl⟩, ⟨by decide, rfl⟩, ⟨by decide, rfl⟩, ⟨by decide, rfl⟩⟩, by decide, by decide, ⟨⟨by decide, rfl⟩, by decide⟩⟩

/-- With no internal memory and no channel every access of BGAFFINE completes, so the service answers a next state whatever its open
accesses are. -/
theorem witness_SwiServices_bgAffine :
    ∃ t, exec (.swi .al 0x0E0000) (State.create { Config.reset with memSize := 0 }) = .next t := by
  have key : ∀ (next : List Word → Option BusAccess) (n : Nat) (seen : List Word) (s : State), s.cfg.memSize = 0 → s.channels = [] →
      ∃ t, State.accesses next n seen s = .ok t := by
    intro next n
    induction n with
    | zero => intro seen s _ _; exact ⟨s, rfl⟩
    | succ n ih =>
      intro seen s hm hc
      simp only [State.accesses]
      split
      · exact ⟨s, rfl⟩
      · rename_i a _
        have hi : ∀ a w, s.internal a w = false := by
          intro a w; cases w <;> simp [State.internal, hm, widthBytes]
        have he : ∀ a, s.external a = true := by intro a; simp [State.external, hm]
        have hx : s.access a = .ok (0, s) := by
          cases a <;> simp [State.access, State.memRead, State.memWrite, hi, he, State.channelRead, State.channelWrite,
            State.matching, hc, State.writeChannels, bind, Except.bind, pure, Except.pure]
        simp only [hx]
        exact ih _ s hm hc
  obtain ⟨t, ht⟩ := key _ _ [] (State.create { Config.reset with memSize := 0 }).advance rfl rfl
  exact ⟨t, congrArg finish ht⟩

theorem witness_ThumbAluResults : AluOpT.mul = .mul ∧ (1 : LowReg) ≠ 0 := by decide

theorem witness_ThumbHighRegisters :
    (true || false) = true ∧ (false || true) = true ∧ (false || false) = false ∧ hiReg true 7 = 15 ∧ hiReg false 7 = 7 := by decide

/-- The word, the halfword and the byte at the end of memory. -/
theorem witness_ThumbLoads :
    (inMemory (regs12 thumbed 0x3F8 4) (loadTAddr (regs12 thumbed 0x3F8 4) (.wordReg 2 1)) (loadTWidth (.wordReg 2 1)) ∧
      (loadTAddr (regs12 thumbed 0x3F8 4) (.wordReg 2 1)).toNat % loadTWidth (.wordReg 2 1) = 0) ∧
    (inMemory (regs12 thumbed 0x3FC 4) (loadTAddr (regs12 thumbed 0x3FC 4) (.halfImm 1 1)) (loadTWidth (.halfImm 1 1)) ∧
      (loadTAddr (regs12 thumbed 0x3FC 4) (.halfImm 1 1)).toNat % loadTWidth (.halfImm 1 1) = 0) ∧
    (inMemory (regs12 thumbed 0x3E0 4) (loadTAddr (regs12 thumbed 0x3E0 4) (.byteImm 31 1)) (loadTWidth (.byteImm 31 1)) ∧
      (loadTAddr (regs12 thumbed 0x3E0 4) (.byteImm 31 1)).toNat % loadTWidth (.byteImm 31 1) = 0) ∧
    (inMemory { thumbed with pc := 2 } (loadTAddr { thumbed with pc := 2 } (.pc 254)) 4 ∧
      (loadTAddr { thumbed with pc := 2 } (.pc 254)).toNat % 4 = 0) := by
  refine ⟨⟨⟨by decide, by decide⟩, by decide⟩, ⟨⟨by decide, by decide⟩, by decide⟩, ⟨⟨by decide, by decide⟩, by decide⟩, ⟨⟨by decide, by decide⟩, by decide⟩⟩

theorem witness_ThumbStores :
    (inMemory (regs12 thumbed 0x3F8 4) (storeTAddr (regs12 thumbed 0x3F8 4) (.wordReg 2 1)) (widthBytes (storeTWidth (.wordReg 2 1))) ∧
      (storeTAddr (regs12 thumbed 0x3F8 4) (.wordReg 2 1)).toNat % widthBytes (storeTWidth (.wordReg 2 1)) = 0) ∧
    (inMemory (regs12 thumbed 0x3FC 4) (storeTAddr (regs12 thumbed 0x3FC 4) (.halfImm 1 1)) (widthBytes (storeTWidth (.halfImm 1 1))) ∧
      (storeTAddr (regs12 thumbed 0x3FC 4) (.halfImm 1 1)).toNat % widthBytes (storeTWidth (.halfImm 1 1)) = 0) ∧
    inMemory (regs12 thumbed 0x3FB 4) (storeTAddr (regs12 thumbed 0x3FB 4) (.byteReg 2 1)) (widthBytes (storeTWidth (.byteReg 2 1))) := by
  refine ⟨⟨⟨by decide, by decide⟩, by decide⟩, ⟨⟨by decide, by decide⟩, by decide⟩, ⟨by decide, by decide⟩⟩

/-- SP at the end of memory, all the registers and LR. -/
theorem witness_PushStores :
    Instr.wellFormed (.pushT true 0xFF) = true ∧ (stackList (0xFF : BitVec 8) true 14).length = 9 ∧
    inMemory (thumbed.writeReg 13 0x400) ((thumbed.writeReg 13 0x400).readReg 13 - span 9) (4 * 9) ∧
    ((thumbed.writeReg 13 0x400).readReg 13 - span 9).toNat % 4 = 0 := by
  refine ⟨by decide, by decide, ⟨by decide, by decide⟩, by decide⟩

/-- R15 not loaded; loaded with bit 0 set; with bit 0 clear. -/
theorem witness_PopLoads :
    (Instr.wellFormed (.popT false 1) = true ∧ inMemory (thumbed.writeReg 13 0x3FC) ((thumbed.writeReg 13 0x3FC).readReg 13) (4 * 1) ∧
      (stackList (1 : BitVec 8) false 15).length = 1 ∧ ((thumbed.writeReg 13 0x3FC).readReg 13).toNat % 4 = 0) ∧
    (Instr.wellFormed (.popT true 0) = true ∧ (stackList (0 : BitVec 8) true 15).length = 1 ∧
      (wordAt (withWord thumbed 0x3FC 0x201) 0x3FC).getLsbD 0 = true ∧ (wordAt (withWord thumbed 0x3FC 0x200) 0x3FC).getLsbD 0 = false) := by
  refine ⟨⟨by decide, ⟨by decide, by decide⟩, by decide, by decide⟩, by decide, by decide, by decide, by decide⟩

theorem witness_ThumbMultiple :
    (Instr.wellFormed (.stmiaT 1 0b110) = true ∧ inMemory (regs12 thumbed 0x3F8 7) ((regs12 thumbed 0x3F8 7).readReg (1 : LowReg).reg) (4 * 2) ∧
      (regsOf (0b110 : BitVec 8)).length = 2 ∧ ((regs12 thumbed 0x3F8 7).readReg (1 : LowReg).reg).toNat % 4 = 0) ∧
    Instr.wellFormed (.ldmiaT 1 0b101) = true ∧ (regsOf (0b101 : BitVec 8)).length = 2 := by
  refine ⟨⟨by decide, ⟨by decide, by decide⟩, by decide, by decide⟩, by decide, by decide⟩

theorem witness_ThumbConditionalBranch :
    Instr.branchT .eq 0x80 = some (.beqT 0x80) ∧ Instr.branchT .le 0x7F = some (.bleT 0x7F) := by decide

theorem witness_ThumbBranchAndLink :
    thumbed.thumb = true ∧ thumbed.pc.toNat % 2 = 0 ∧ ({ thumbed with pc := 0xFFFFFFFE }).pc.toNat % 2 = 0 := by decide

/-- The last word inside, the first word that straddles, the last, and the first address beyond. -/
theorem witness_BusRouting :
    (0x3FC : Word).toNat + widthBytes .word ≤ base.cfg.memSize ∧
    ((0x3FD : Word).toNat < base.cfg.memSize ∧ base.cfg.memSize < (0x3FD : Word).toNat + widthBytes .word) ∧
    ((0x3FF : Word).toNat < base.cfg.memSize ∧ base.cfg.memSize < (0x3FF : Word).toNat + widthBytes .half) ∧
    (base.cfg.memSize ≤ (0x400 : Word).toNat ∧ covering base 0x400 = []) := by decide

/-- The first and the last address of a channel's range. -/
theorem witness_ChannelAccesses :
    (base.register vram).cfg.memSize ≤ (0x06000000 : Word).toNat ∧ covering (base.register vram) 0x06000000 ≠ [] ∧
    covering (base.register vram) 0x06017FFF ≠ [] ∧ covering (base.register vram) 0x06018000 = [] := by decide

theorem witness_WriteReadRoundTrip :
    base.mem.wf ∧ (0x3FC : Word).toNat + widthBytes .word ≤ base.cfg.memSize ∧ base.bigEndian = false ∧
    (base.setBigEndian true).mem.wf ∧ (base.setBigEndian true).bigEndian = true ∧ (0x3FF : Word).toNat + widthBytes .byte ≤ base.cfg.memSize := by
  decide

theorem witness_MisalignPolicies :
    base.cfg.memSize ≤ 2 ^ 32 ∧ (0x3FB : Word).toNat + 4 ≤ base.cfg.memSize ∧ (0x3FB : Word).toNat % 4 ≠ 0 ∧
    (0x3FB : Word).toNat % 2 ≠ 0 ∧ (0x3FB : Word).toNat % 2 = 1 ∧ base.cfg.misalign = .fault ∧
    (arm7 base).cfg.misalign = .arm7 ∧ base.bigEndian = false ∧
    (base.setBigEndian true).bigEndian = true ∧ (plain base).cfg.misalign = .plainBytes := by
  decide

/-- The clauses over the whole address space, at the edges of memory: aligned and misaligned, for each policy and width. -/
theorem witness_MisalignPolicies_everywhere :
    ((0x400 : Word).toNat % widthBytes (loadWidth .word) = 0 ∧ (0x3FF : Word).toNat % widthBytes (loadWidth .signedByte) = 0) ∧
    ((0x402 : Word).toNat % widthBytes (loadWidth .word) ≠ 0 ∧ (0x402 : Word).toNat % widthBytes .half = 0 ∧ base.cfg.misalign = .fault) ∧
    ((arm7 (base.setBigEndian true)).cfg.misalign = .arm7 ∧ (arm7 (base.setBigEndian true)).bigEndian = true) ∧
    ((arm7 base).cfg.misalign = .arm7 ∧ (arm7 base).bigEndian = false ∧ (0xFFFFFFFF : Word).toNat % 4 ≠ 0 ∧ (0xFFFFFFFF : Word).toNat % 2 ≠ 0 ∧
      down .word 0xFFFFFFFF = 0xFFFFFFFC ∧ down .half 0xFFFFFFFF = 0xFFFFFFFE) := by decide

/-- The outcomes of LDR and STM beyond an aligned address in memory: misaligned (R70, R73), straddling (R63), unmapped (R77). -/
theorem test_transfers_elsewhere :
    exec (.ldrImmPre .al true false 1 0 0) (regs12 base 0x3FD 0) = .fault (.misaligned 0x3FD .word) ∧
    exec (.ldrImmPre .al true false 1 0 0) (plain (regs12 base 0x3FD 0)) = .fault (.straddle 0x3FD .word) ∧
    exec (.ldrImmPre .al true false 1 2 0) (regs12 base 0x400 7) = .next ((regs12 base 0x400 7).advance.writeReg 2 0) ∧
    exec (.stmia .al true 1 0x000C) (regs12 base 0x3FD 7) = .fault (.misaligned 0x3FD .word) ∧
    exec (.stmia .al false 1 0x000C) (plain (regs12 base 0x3F9 7)) = .fault (.straddle 0x3FD .word) ∧
    exec (.stmia .al false 1 0x000C) (arm7 (regs12 base 0x403 7)) = .next (arm7 (regs12 base 0x403 7)).advance := by
  refine ⟨rfl, rfl, rfl, rfl, rfl, rfl⟩

/-- One next state, for the frames of registers, status, memory and history, and SPSRs. -/
theorem witness_Frames :
    (∃ t, exec (.addImm .al true 1 0 0 5) base = .next t) ∧ (0 : Reg) ∈ destinations (.addImm .al true 1 0 0 5) ∧
    physReg base.bank 0 ≠ some (.low 1) ∧ mayStore (.addImm .al true 1 0 0 5) = false ∧ mayAccess (.addImm .al true 1 0 0 5) = false ∧
    base.spsr? ≠ some 2 := by
  refine ⟨⟨_, rfl⟩, by decide, by decide, by decide, by decide, by decide⟩

theorem witness_FrameSingleStores :
    (sdtResult (regs12 base 0x3FC 7) .post true 1 0 (.imm 4) = .ok (0x3FC, some 0x400) ∧
      (∃ t, exec (.str .post .al true 1 0 (.imm 4)) (regs12 base 0x3FC 7) = .next t) ∧
      ∃ t, exec (.strb .post .al true 1 0 (.imm 4)) (regs12 base 0x3FC 7) = .next t) ∧
    (hdtResult (regs12 base 0x3FC 2) true true false 1 0 (.reg 2) = .ok (0x3FE, none) ∧
      ∃ t, exec (.strh .al true true false 1 0 (.reg 2)) (regs12 base 0x3FC 2) = .next t) ∧
    ((∃ t, exec (.swp .al 1 2 2) (regs12 base 0x3FC 7) = .next t) ∧ ∃ t, exec (.swpb .al 1 2 2) (regs12 base 0x3FF 7) = .next t) ∧
    (∃ t, exec (.storeT (.wordImm 0 1) 2) (regs12 thumbed 0x3FC 7) = .next t) := by
  refine ⟨⟨by rfl, ⟨_, rfl⟩, ⟨_, rfl⟩⟩, ⟨by rfl, ⟨_, rfl⟩⟩, ⟨⟨_, rfl⟩, ⟨_, rfl⟩⟩, ⟨_, rfl⟩⟩

theorem witness_FrameBlockStores :
    (State.blockAddress (regs12 base 0x3F8 7) .ia 1 0x0006 = .ok (0x3F8, 0x400) ∧
      ∃ t, exec (.stm .ia .al true 1 0x0006) (regs12 base 0x3F8 7) = .next t) ∧
    (∃ t, exec (.stmUsr .ia .al false 1 0x0006) (regs12 (svc 0x1F) 0x3F8 7) = .next t) ∧
    (∃ t, exec (.pushT true 1) (thumbed.writeReg 13 0x400) = .next t) ∧
    (∃ t, exec (.stmiaT 1 0b110) (regs12 thumbed 0x3F8 7) = .next t) := by
  refine ⟨⟨by rfl, ⟨_, rfl⟩⟩, ⟨_, rfl⟩, ⟨_, rfl⟩, ⟨_, rfl⟩⟩

theorem witness_StepKeepsInvariant : base.Inv ∧ ∃ t, step base = .next t := ⟨by decide, ⟨_, rfl⟩⟩

theorem witness_UserModeIsNeverLeft :
    usr.isUser = true ∧ ∃ t, step (usr.withFetchWord 32 0xE129F000) = .next t ∧ (usr.withFetchWord 32 0xE129F000).isUser = true :=
  ⟨by decide, ⟨_, rfl, by decide⟩⟩

theorem witness_CreationState : Config.reset.WellFormed := by decide

theorem witness_HostOperations :
    (∃ d ∈ (base.register vram).channels, d.id = vram.id) ∧ (∀ d ∈ base.channels, d.id ≠ vram.id) ∧ base.Inv ∧
    base.cfg.memSize < 0x3FF + ([1, 2] : List Byte).length ∧ 0x3FE + ([1, 2] : List Byte).length ≤ base.cfg.memSize := by decide

end Sys2Proof.Tests
end

section
/-! The frame of a whole instruction: what `exec` can change when it answers a next state, from the frames of the meanings
(Laws/Frames.lean, Laws/FramesThumb.lean). -/
namespace Sys2Proof.Machine
open Sys2Proof

/-- What an instruction that answers a next state changes: its `destinations`, the CPSR bits of its `statusMask`, the program counter and
what the bus can change; or the current SPSR, by MSR (10_state.md R33); or `halted`, by a SWI (R40). -/
inductive Changes (i : Instr) (s t : State) : Prop where
  | frame (h : Frame s.bank (destinations i) (statusMask i) s t)
  | spsr (k : Fin 5) (v : Word)
      (hi : (∃ c mask rm, i = .msrRegSpsr c mask rm) ∨ ∃ c mask rot imm8, i = .msrImmSpsr c mask rot imm8)
      (hk : s.spsr? = some k) (ht : t = { s.advance with spsr := s.spsr.set k v k.isLt })
  | halt (hi : (∃ c n, i = .swi c n) ∨ ∃ n, i = .swiT n) (ht : t = { s.advance with halted := true })

/-! ### Frames around the condition and the writeback -/

/-- The advance is in every frame. -/
theorem Frame.ofAdvance (ds : List Reg) (m : Word) (s : State) : Frame s.bank ds m s s.advance :=
  (Frame.advance s.bank s).mono (by simp) (by simp)

/-- A failed condition only advances, so an ARM instruction has the frame of its effect. -/
theorem armExec_frame {ds : List Reg} {m : Word} {c : Cond} {effect : State → Result State} {s t : State}
    (h : armExec c effect s = .next t) (he : effect s = .ok t → Frame s.bank ds m s t) : Frame s.bank ds m s t := by
  rcases armExec_next h with ⟨_, rfl⟩ | ⟨_, h⟩
  · exact Frame.ofAdvance ds m s
  · exact he h

theorem backRegs_if (b : Bool) (rn : Reg) (v : Word) : backRegs rn (if b then some v else none) = baseIf b rn := by
  cases b <;> rfl

theorem sdtAddress_backRegs {s : State} {off : Result Word} {p u w : Bool} {rn rd : Reg} {a : Word} {wb : Option Word}
    (h : s.sdtAddress off p u w rn rd = .ok (a, wb)) : backRegs rn wb = baseIf (!p || w) rn := by
  obtain ⟨_, _, _, _, rfl⟩ := sdtAddress_ok h
  exact backRegs_if _ _ _

theorem hdtAddress_backRegs {s : State} {off : Result Word} {p u w : Bool} {rn rd : Reg} {a : Word} {wb : Option Word}
    (h : s.hdtAddress off p u w rn rd = .ok (a, wb)) : backRegs rn wb = baseIf (!p || w) rn := by
  obtain ⟨_, _, _, _, _, rfl⟩ := hdtAddress_ok h
  exact backRegs_if _ _ _

theorem Frame.cons_of_append {b : Bank} {ds : List Reg} {r : Reg} {m : Word} {s t : State} (h : Frame b (ds ++ [r]) m s t) :
    Frame b (r :: ds) m s t :=
  h.mono (fun q hq => .inl (by simpa [or_comm] using hq)) (by simp)

/-! ### Single transfers, with the base among the registers where it is written back (45_arm_load_store.md R260, R266) -/

theorem loadWord_sdt_frame {s t : State} {off : Result Word} {p u w : Bool} {rn rd : Reg}
    (h : s.loadWord (s.sdtAddress off p u w rn rd) rn rd = .ok t) : Frame s.bank (rd :: baseIf (!p || w) rn) 0 s t := by
  obtain ⟨a, wb, ha, hf, _⟩ := loadWord_frame h
  exact sdtAddress_backRegs ha ▸ hf.cons_of_append

theorem loadNarrow_sdt_frame {s t : State} {tag : Tag} {k : LoadKind} {off : Result Word} {p u w : Bool} {rn rd : Reg}
    (h : s.loadNarrow tag k (s.sdtAddress off p u w rn rd) rn rd = .ok t) : Frame s.bank (rd :: baseIf (!p || w) rn) 0 s t := by
  obtain ⟨_, a, wb, ha, hf, _⟩ := loadNarrow_frame h
  exact sdtAddress_backRegs ha ▸ hf.cons_of_append

theorem loadNarrow_hdt_frame {s t : State} {tag : Tag} {k : LoadKind} {off : Result Word} {p u w : Bool} {rn rd : Reg}
    (h : s.loadNarrow tag k (s.hdtAddress off p u w rn rd) rn rd = .ok t) : Frame s.bank (rd :: baseIf (!p || w) rn) 0 s t := by
  obtain ⟨_, a, wb, ha, hf, _⟩ := loadNarrow_frame h
  exact hdtAddress_backRegs ha ▸ hf.cons_of_append

theorem storeWord_sdt_frame {s t : State} {off : Result Word} {p u w : Bool} {rn rd : Reg}
    (h : s.storeWord (s.sdtAddress off p u w rn rd) rn rd = .ok t) : Frame s.bank (baseIf (!p || w) rn) 0 s t := by
  obtain ⟨a, wb, u, ha, hw, rfl⟩ := storeWord_ok h
  exact sdtAddress_backRegs ha ▸ Frame.store hw rn wb

theorem storeNarrow_sdt_frame {s t : State} {tag : Tag} {k : Width} {off : Result Word} {p u w : Bool} {rn rd : Reg}
    (h : s.storeNarrow tag k (s.sdtAddress off p u w rn rd) rn rd = .ok t) : Frame s.bank (baseIf (!p || w) rn) 0 s t := by
  obtain ⟨_, a, wb, u, ha, hw, rfl⟩ := storeNarrow_ok h
  exact sdtAddress_backRegs ha ▸ Frame.store hw rn wb

theorem storeNarrow_hdt_frame {s t : State} {tag : Tag} {k : Width} {off : Result Word} {p u w : Bool} {rn rd : Reg}
    (h : s.storeNarrow tag k (s.hdtAddress off p u w rn rd) rn rd = .ok t) : Frame s.bank (baseIf (!p || w) rn) 0 s t := by
  obtain ⟨_, a, wb, u, ha, hw, rfl⟩ := storeNarrow_ok h
  exact hdtAddress_backRegs ha ▸ Frame.store hw rn wb

/-! ### The other meanings that had no frame of their own -/

theorem writePcArm_frame {b : Bank} {s t : State} {v : Word} (h : s.writePcArm v = .ok t) : Frame b [] 0 s t := by
  obtain ⟨rfl, _⟩ := writePcArm_ok h
  exact Frame.ofPc b s v

theorem storeMultipleUser_frame {s t : State} {k : BlockMode} {w : Bool} {rn : Reg} {list : BitVec 16}
    (h : s.storeMultipleUser k w rn list = .ok t) : Frame s.bank [] 0 s t := by
  obtain ⟨_, _, a, b, _, hs⟩ := storeMultipleUser_ok h
  exact ((Frame.advance s.bank s).trans ((storeBlock_frame hs).frame _)).mono (by simp) (by simp)

/-- B of ARM state. -/
theorem branch_frame {s t : State} {x : Word} (h : s.advance.writePcArm x = .ok t) : Frame s.bank [] 0 s t :=
  ((Frame.advance s.bank s).trans (writePcArm_frame h)).mono (by simp) (by simp)

/-- BX of either state. -/
theorem branchExchange_frame {s t : State} {v : Word} (h : s.advance.writePcInterwork v = .ok t) : Frame s.bank [] 0x20#32 s t :=
  ((Frame.advance s.bank s).trans (Frame.interwork h)).mono (by simp) (by simp)

/-- BL of ARM state. -/
theorem branchLink_frame {s t : State} {v x : Word} (h : (s.advance.writeReg 14 v).writePcArm x = .ok t) : Frame s.bank [14] 0 s t :=
  ((advance_writeReg_frame s 14 v).1.trans (writePcArm_frame h)).mono (by simp) (by simp)

theorem writeReg_writePcThumb_frame (s : State) (r : Reg) (v x : Word) :
    Frame s.bank [r] 0 s ((s.advance.writeReg r v).writePcThumb x) :=
  ((advance_writeReg_frame s r v).1.trans (Frame.ofPc _ _ _)).mono (by simp) (by simp)

theorem refusedEncoding_ne_ok {what : Refused} {t : State} : refusedEncoding what ≠ .ok t := nofun

theorem ok_frame {b : Bank} {ds : List Reg} {m : Word} {s t u : State} (h : (.ok u : Result State) = .ok t) (hf : Frame b ds m s u) :
    Frame b ds m s t := by
  cases h
  exact hf

/-- POP's frame, with R15 left out of its list (R378). -/
theorem pop_stackRegs_frame {s t : State} {list : BitVec 8} {r : Bool} (h : s.pop (stackRegs list r 15) r = .ok t) :
    Frame s.bank (13 :: regsOf list) 0 s t := by
  obtain ⟨_, hf, _⟩ := pop_frame h
  refine hf.mono (fun q hq => ?_) (by simp)
  cases r <;> simp [stackRegs] at hq ⊢ <;> tauto

/-! ### Every instruction -/

theorem service_changes {i : Instr} {s t : State} {svc : Word} (hi : (∃ c n, i = .swi c n) ∨ ∃ n, i = .swiT n)
    (h : s.service svc = .ok t) (hd : destinations i = [0, 1, 3]) (hm : statusMask i = 0) : Changes i s t := by
  rcases service_frame h with ht | hf
  · exact .halt hi ht
  · exact .frame (by rwa [hd, hm])

theorem msrSpsr_changes {i : Instr} {s t : State} {mask : BitVec 4} {operand : Result Word}
    (hi : (∃ c mask rm, i = .msrRegSpsr c mask rm) ∨ ∃ c mask rot imm8, i = .msrImmSpsr c mask rot imm8)
    (h : s.msrSpsr mask operand = .ok t) : Changes i s t := by
  obtain ⟨v, k, _, hk, ht⟩ := msrSpsr_ok h
  exact .spsr k _ hi hk ht

theorem armExec_changes {i : Instr} {c : Cond} {effect : State → Result State} {s t : State} (h : armExec c effect s = .next t)
    (he : effect s = .ok t → Changes i s t) : Changes i s t := by
  rcases armExec_next h with ⟨_, rfl⟩ | ⟨_, h⟩
  · exact .frame (Frame.ofAdvance _ _ s)
  · exact he h

/-- What a next state can differ in, by the meaning of each instruction; the faulting forms answer no next state. -/
theorem exec_changes {i : Instr} {s t : State} (h : exec i s = .next t) : Changes i s t := by
  unfold exec at h
  cases i with
  -- 42_arm_data_processing.md: the logical operations leave V (R163)
  | andImm | andRsi | andRsr | eorImm | eorRsi | eorRsr | orrImm | orrRsi | orrRsr | movImm | movRsi | movRsr | bicImm | bicRsi | bicRsr
  | mvnImm | mvnRsi | mvnRsr => exact .frame (armExec_frame h fun h => (dataProc_frame (.inr ⟨rfl, fun _ => rfl⟩) h).1)
  | subImm | subRsi | subRsr | rsbImm | rsbRsi | rsbRsr | addImm | addRsi | addRsr | adcImm | adcRsi | adcRsr | sbcImm | sbcRsi | sbcRsr
  | rscImm | rscRsi | rscRsr => exact .frame (armExec_frame h fun h => (dataProc_frame (.inl rfl) h).1)
  | tstImm | tstRsi | tstRsr | teqImm | teqRsi | teqRsr =>
    exact .frame (armExec_frame h fun h => (compare_frame (.inr ⟨rfl, fun _ => rfl⟩) h).1)
  | cmpImm | cmpRsi | cmpRsr | cmnImm | cmnRsi | cmnRsr => exact .frame (armExec_frame h fun h => (compare_frame (.inl rfl) h).1)
  -- 41_arm_branch.md
  | b => exact .frame (armExec_frame h branch_frame)
  | bl => exact .frame (armExec_frame h branchLink_frame)
  | bx => exact .frame (armExec_frame h branchExchange_frame)
  | blxReg => exact .frame (armExec_frame h fun h => (branchLinkExchange_frame h).2.1)
  -- 43_arm_multiply.md
  | mul | mla => exact .frame (armExec_frame h fun h => (multiply_frame h).2.1)
  | umull | umlal => exact .frame (armExec_frame h fun h => (multiplyLong_frame h).2.1)
  | smull | smlal => exact .frame (armExec_frame h fun h => (multiplyLongSigned_frame h).2.1)
  | umaal | smlalxy => exact .frame (armExec_frame h fun h => (multiplyLongPlain_frame h).2.1)
  | smlaxy | smulwy => exact .frame (armExec_frame h fun h => absurd h refusedEncoding_ne_ok)
  | smlawy => exact .frame (armExec_frame h fun h => (multiplyWide_frame h).2.1)
  | smulxy => exact .frame (armExec_frame h fun h => (multiplyHalf_frame h).2.1)
  -- 44_arm_psr_transfer.md
  | mrsCpsr | mrsSpsr => exact .frame (armExec_frame h fun h => have ⟨_, _, hf, _⟩ := readStatus_frame h; hf)
  | msrRegCpsr | msrImmCpsr => exact .frame (armExec_frame h fun h => (msrCpsr_frame h).2.1)
  | msrRegSpsr => exact armExec_changes h (msrSpsr_changes (.inl ⟨_, _, _, rfl⟩))
  | msrImmSpsr => exact armExec_changes h (msrSpsr_changes (.inr ⟨_, _, _, _, rfl⟩))
  -- 45_arm_load_store.md
  | swp | swpb => exact .frame (armExec_frame h swap_frame)
  | ldrImmPre | ldrRegPre | ldrImmPost | ldrRegPost | ldrtImm | ldrtReg => exact .frame (armExec_frame h loadWord_sdt_frame :)
  | strImmPre | strRegPre | strImmPost | strRegPost | strtImm | strtReg => exact .frame (armExec_frame h storeWord_sdt_frame :)
  | ldrbImmPre | ldrbRegPre | ldrbImmPost | ldrbRegPost | ldrbtImm | ldrbtReg =>
    exact .frame (armExec_frame h loadNarrow_sdt_frame :)
  | strbImmPre | strbRegPre | strbImmPost | strbRegPost | strbtImm | strbtReg =>
    exact .frame (armExec_frame h storeNarrow_sdt_frame :)
  | ldrhImm | ldrhReg | ldrsbImm | ldrsbReg | ldrshImm | ldrshReg => exact .frame (armExec_frame h loadNarrow_hdt_frame)
  | strhImm | strhReg => exact .frame (armExec_frame h storeNarrow_hdt_frame)
  -- 46_arm_block_transfer.md
  | stmia | stmib | stmda | stmdb => exact .frame (armExec_frame h storeMultiple_frame)
  | ldmia | ldmib | ldmda | ldmdb => exact .frame (armExec_frame h fun h => (loadMultiple_frame h).1)
  | stmiaUsr | stmibUsr | stmdaUsr | stmdbUsr => exact .frame (armExec_frame h storeMultipleUser_frame)
  | ldmiaRst | ldmibRst | ldmdaRst | ldmdbRst => exact .frame (armExec_frame h fun h => (loadMultipleRestore_frame h).2.1)
  -- 47_swi_and_undefined.md
  | swi => exact armExec_changes h fun h => service_changes (.inl ⟨_, _, rfl⟩) h rfl rfl
  | swiT => exact service_changes (.inr ⟨_, rfl⟩) (thumbExec_next h) rfl rfl
  -- 48_thumb_data_ops.md: each form writes the flags of its rule (R320)
  | lslImmT | lsrImmT | asrImmT | lslRegT | lsrRegT | asrRegT | rorT => exact .frame (shiftT_frame (thumbExec_next h)).1
  | addRegT | subRegT | addImm3T | subImm3T | addImm8T | subImm8T | adcT | sbcT | negT => exact .frame (arithT_frame (thumbExec_next h)).1
  | cmpImmT | cmpRegT | cmnT => exact .frame (compareT_frame (thumbExec_next h)).1
  | movImmT | andT | eorT | orrT | bicT | mvnT => exact .frame (logicT_frame (thumbExec_next h)).1
  | tstT => exact .frame (testT_frame (thumbExec_next h)).1
  | mulT => exact .frame (multiplyT_frame (thumbExec_next h)).2.1
  | addHiT | movHiT => exact .frame (writeHi_frame (thumbExec_next h)).2.1
  | cmpHiT => exact .frame (compareHi_frame (thumbExec_next h)).2.1
  | bxT => exact .frame (branchExchange_frame (thumbExec_next h))
  | bxH1T => exact nomatch thumbExec_next h
  | addPcT | addSpT | addSpimmT | subSpimmT | blHiT => exact .frame (ok_frame (thumbExec_next h) (advance_writeReg_frame s _ _).1)
  -- 49_thumb_load_store_branch.md
  | ldrPcT | ldrRegT | ldrbRegT | ldsbRegT | ldrhRegT | ldshRegT | ldrImmT | ldrbImmT | ldrhImmT | ldrSpT =>
    exact .frame (loadT_frame (thumbExec_next h)).1
  | strRegT | strbRegT | strhRegT | strImmT | strbImmT | strhImmT | strSpT => exact .frame (storeT_frame (thumbExec_next h))
  | pushT => exact .frame (push_frame (thumbExec_next h))
  | popT => exact .frame (pop_stackRegs_frame (thumbExec_next h))
  | stmiaT => exact .frame (storeMultipleT_frame (thumbExec_next h))
  | ldmiaT =>
    obtain ⟨_, _, hf, _⟩ := loadMultipleT_frame (thumbExec_next h)
    exact .frame hf
  | beqT | bneT | bcsT | bccT | bmiT | bplT | bvsT | bvcT | bhiT | blsT | bgeT | bltT | bgtT | bleT =>
    exact .frame (branchIfT_frame (thumbExec_next h)).1
  | bT => exact .frame (ok_frame (thumbExec_next h) (Frame.ofPc _ _ _))
  | blLoT => exact .frame (ok_frame (thumbExec_next h) (writeReg_writePcThumb_frame s 14 _ _))

/-- Settles O52: the CPSR bits outside `statusMask` are those of the state before, by the frame of the instruction; a write to an SPSR and
the halt leave the whole CPSR. -/
theorem frameStatus : Obligations.FrameStatus := by
  intro i s t h
  cases exec_changes h with
  | frame hf => exact hf.cpsr
  | spsr k v _ _ ht => rw [ht, State.advance_cpsr]
  | halt _ ht => rw [ht, State.advance_cpsr]

end Sys2Proof.Machine
end

section
/-! Memory (20_memory.md): where a bus access goes, the round trip of a value, the alignment policies, and what the single stores leave
alone. -/
namespace Sys2Proof.Claims
open Sys2Proof Sys2Proof.Machine

/-! ### The bus, by the start address of the access (R63, R64, R77) -/

theorem matching_eq_covering (s : State) (a : Word) : s.matching a = covering s a := by
  simp only [State.matching, covering, Channel.covers, Bool.decide_and]

section Inside
variable {s : State} {a : Word} {w : Width} (h : a.toNat + widthBytes w ≤ s.cfg.memSize)
include h

theorem internal_of_inside : s.internal a w = true := by simpa [State.internal] using h

theorem memRead_inside : s.memRead a w = .ok (valueAt s w a.toNat, s) := by
  rw [memRead_internal (internal_of_inside h), assemble_width]

theorem memWrite_inside (v : Word) :
    s.memWrite a w v = .ok { s with mem := Memory.writeBytes s.mem a.toNat (widthBytesOf s w v) } := by
  rw [memWrite_internal (internal_of_inside h), disassemble_width]

end Inside

section Beyond
variable {s : State} {a : Word} {w : Width}

theorem not_internal (h : s.cfg.memSize < a.toNat + widthBytes w) : s.internal a w = false := by
  simpa [State.internal] using h

theorem not_external (h : a.toNat < s.cfg.memSize) : s.external a = false := by simpa [State.external] using h

theorem memRead_across (h : a.toNat < s.cfg.memSize) (hw : s.cfg.memSize < a.toNat + widthBytes w) :
    s.memRead a w = .error (.straddle a w) := by
  simp [State.memRead, not_internal hw, not_external h]

theorem memWrite_across (h : a.toNat < s.cfg.memSize) (hw : s.cfg.memSize < a.toNat + widthBytes w) (v : Word) :
    s.memWrite a w v = .error (.straddle a w) := by
  simp [State.memWrite, not_internal hw, not_external h]

/-- At or above the end of internal memory no access is internal: every width has at least one byte. -/
theorem not_internal_above (h : s.cfg.memSize ≤ a.toNat) : s.internal a w = false := by
  apply not_internal
  cases w <;> simp only [widthBytes] <;> omega

theorem memRead_above (h : s.cfg.memSize ≤ a.toNat) : s.memRead a w = .ok (s.channelRead a w) := by
  simp [State.memRead, not_internal_above h, State.external, h]

theorem memWrite_above (h : s.cfg.memSize ≤ a.toNat) (v : Word) : s.memWrite a w v = .ok (s.channelWrite a w v) := by
  simp [State.memWrite, not_internal_above h, State.external, h]

theorem channelRead_uncovered (h : covering s a = []) : s.channelRead a w = (0, s) := by
  simp only [State.channelRead, matching_eq_covering, h]

theorem channelWrite_uncovered (h : covering s a = []) (v : Word) : s.channelWrite a w v = s := by
  simp only [State.channelWrite, matching_eq_covering, h, State.writeChannels]

end Beyond

/-- Settles O47: inside, across the end of internal memory, and above it where no channel covers the address. -/
theorem busRouting : Obligations.BusRouting := by
  intro s a v w
  refine ⟨fun h => ⟨memRead_inside h, memWrite_inside h v⟩, fun h hw => ⟨memRead_across h hw, memWrite_across h hw v⟩, fun h hc => ?_⟩
  rw [memRead_above h, memWrite_above h, channelRead_uncovered hc, channelWrite_uncovered hc]
  exact ⟨rfl, rfl⟩

/-! ### A value written and read back (R64 to R66) -/

theorem wordOfBytes_bytesOfWord_width (w : Width) (v : Word) : wordOfBytes (bytesOfWord (widthBytes w) v) = truncate w v := by
  apply BitVec.eq_of_getLsbD_eq
  intro i hi
  rw [wordOfBytes_bytesOfWord]
  cases w with
  | byte | half => simp only [truncate, BitVec.getLsbD_setWidth, hi, decide_true, Bool.true_and]; rfl
  | word => simp only [widthBytes, truncate, hi, Nat.reduceMul, decide_true, Bool.true_and]

theorem widthBytesOf_length (s : State) (w : Width) (v : Word) : (widthBytesOf s w v).length = widthBytes w := by
  rw [← disassemble_width, disassemble_length]

/-- Internal memory with a value of a width in it, as `MemWrite` leaves it. -/
def stored (s : State) (w : Width) (a : Nat) (v : Word) : State :=
  { s with mem := Memory.writeBytes s.mem a (widthBytesOf s w v) }

theorem valueAt_stored {s : State} (hm : s.mem.wf) (w : Width) (a : Nat) (v : Word) :
    valueAt (stored s w a v) w a = truncate w v := by
  have hread := Memory.readBytes_writeBytes hm a (widthBytesOf s w v)
  rw [widthBytesOf_length] at hread
  calc valueAt (stored s w a v) w a
      = assemble s.bigEndian (Memory.readBytes (stored s w a v).mem a (widthBytes w)) := (assemble_width _ _ _).symm
    _ = assemble s.bigEndian (disassemble s.bigEndian (widthBytes w) v) := by
        rw [disassemble_width]; exact congrArg _ hread
    _ = truncate w v := by rw [assemble_disassemble, wordOfBytes_bytesOfWord_width]

theorem byteAt_stored {s : State} (hm : s.mem.wf) (w : Width) (a : Nat) (v : Word) {k : Nat} (hk : k < widthBytes w) :
    byteAt (stored s w a v) (a + k) = (widthBytesOf s w v).getD k Memory.unlisted := by
  have h := Memory.read_writeBytes hm a (a + k) (widthBytesOf s w v)
  rwa [widthBytesOf_length, if_pos (by omega), Nat.add_sub_cancel_left] at h

theorem byteAt_stored_outside (s : State) (w : Width) (a : Nat) (v : Word) {c : Nat} (hc : c < a ∨ a + widthBytes w ≤ c) :
    byteAt (stored s w a v) c = byteAt s c :=
  Memory.read_writeBytes_of_outside _ _ _ _ (by rwa [widthBytesOf_length])

theorem byteAt_stored_little {s : State} (hm : s.mem.wf) (a : Nat) (v : Word) (he : s.bigEndian = false) :
    byteAt (stored s .word a v) a = v.extractLsb' 0 8 := by
  have h := byteAt_stored hm .word a v (k := 0) (by decide)
  simpa [widthBytesOf, wordBytes, he] using h

theorem byteAt_stored_big {s : State} (hm : s.mem.wf) (a : Nat) (v : Word) (he : s.bigEndian = true) :
    byteAt (stored s .word a v) a = v.extractLsb' 24 8 := by
  have h := byteAt_stored hm .word a v (k := 0) (by decide)
  simpa [widthBytesOf, wordBytes, he] using h

theorem halfAt_stored_big {s : State} (hm : s.mem.wf) (a : Nat) (v : Word) (he : s.bigEndian = true) :
    halfAt (stored s .word a v) (a + 2) = v.extractLsb' 0 16 := by
  have hb : (stored s .word a v).bigEndian = true := he
  have h2 := byteAt_stored hm .word a v (k := 2) (by decide)
  have h3 := byteAt_stored hm .word a v (k := 3) (by decide)
  simp only [widthBytesOf, wordBytes, he, if_true, List.getD_cons_succ, List.getD_cons_zero] at h2 h3
  rw [halfAt, if_pos hb, h2, h3]
  exact BitVec.extractLsb'_append_extractLsb'_eq_extractLsb' rfl

/-- Settles O49: the state that the write answers is `stored`, and the bytes in it are those that the byte order gives. -/
theorem writeReadRoundTrip : Obligations.WriteReadRoundTrip := by
  intro s a v w hm hin
  have hin' : a.toNat + widthBytes w ≤ (stored s w a.toNat v).cfg.memSize := hin
  refine ⟨stored s w a.toNat v, memWrite_inside hin v, Memory.wf_writeBytes hm _ _, ?_,
    fun c hc => byteAt_stored_outside s w _ v hc, ?_, ?_⟩
  · rw [memRead_inside hin', valueAt_stored hm]
  · rintro rfl he
    exact byteAt_stored_little hm _ v he
  · rintro rfl he
    exact ⟨byteAt_stored_big hm _ v he, halfAt_stored_big hm _ v he⟩

/-! ### The alignment policies (R69 to R72) -/

/-- The policies that refuse a misaligned access: `Fault`, and `Arm7` with E = 1. -/
def refusesMisaligned (s : State) : Prop := s.cfg.misalign = .fault ∨ (s.cfg.misalign = .arm7 ∧ s.bigEndian = true)

theorem misaligned_eq_false_iff (w : Width) (a : Word) : misaligned w a = false ↔ a.toNat % widthBytes w = 0 := by
  rw [← Bool.not_eq_true, misaligned_iff, not_not]

theorem extend_eq (k : LoadKind) (v : Word) : extend k v = extended k v := by
  have h8 : v.setWidth 8 = v.extractLsb' 0 8 := BitVec.setWidth_eq_extractLsb' (by decide)
  have h16 : v.setWidth 16 = v.extractLsb' 0 16 := BitVec.setWidth_eq_extractLsb' (by decide)
  cases k <;> simp only [extend, extended, h8, h16]

theorem readExact_eq (s : State) (k : LoadKind) (a : Word) :
    s.readExact k a = (s.memRead a (loadWidth k)).map fun (v, t) => (extended k v, t) := by
  unfold State.readExact
  cases s.memRead a (loadWidth k) with
  | error f => rfl
  | ok x => exact congrArg (fun v => Except.ok (v, x.2)) (extend_eq k x.1)

theorem dataRead_exact {s : State} {k : LoadKind} {a : Word}
    (h : a.toNat % widthBytes (loadWidth k) = 0 ∨ s.cfg.misalign = .plainBytes) :
    s.dataRead k a = (s.memRead a (loadWidth k)).map fun (v, t) => (extended k v, t) := by
  rw [← readExact_eq, State.dataRead]
  rcases h with h | h
  · rw [(misaligned_eq_false_iff _ _).mpr h]; rfl
  · rw [h]; exact ite_self _

theorem dataWrite_exact {s : State} {w : Width} {a : Word} (v : Word)
    (h : a.toNat % widthBytes w = 0 ∨ s.cfg.misalign = .plainBytes) : s.dataWrite w a v = s.memWrite a w v := by
  rw [State.dataWrite]
  rcases h with h | h
  · rw [(misaligned_eq_false_iff _ _).mpr h]; rfl
  · rw [h]; exact ite_self _

theorem dataRead_refused {s : State} (hp : refusesMisaligned s) (k : LoadKind) {a : Word}
    (h : a.toNat % widthBytes (loadWidth k) ≠ 0) : s.dataRead k a = .error (.misaligned a (loadWidth k)) := by
  rw [State.dataRead, (misaligned_iff _ _).mpr h]
  rcases hp with hp | ⟨hp, he⟩
  · rw [hp]; rfl
  · rw [hp, he]; rfl

theorem dataWrite_refused {s : State} (hp : refusesMisaligned s) (w : Width) {a : Word} (v : Word)
    (h : a.toNat % widthBytes w ≠ 0) : s.dataWrite w a v = .error (.misaligned a w) := by
  rw [State.dataWrite, (misaligned_iff _ _).mpr h]
  rcases hp with hp | ⟨hp, he⟩
  · rw [hp]; rfl
  · rw [hp, he]; rfl

/-! ### The rotating policy: `Arm7` with E = 0 (R71) -/

theorem down_of_aligned {w : Width} {a : Word} (h : a.toNat % widthBytes w = 0) : down w a = a := by
  rw [down, h, Nat.sub_zero, BitVec.ofNat_toNat, BitVec.setWidth_eq]

theorem down_toNat (w : Width) (a : Word) : (down w a).toNat = a.toNat - a.toNat % widthBytes w := by
  rw [down, BitVec.toNat_ofNat]
  exact Nat.mod_eq_of_lt (Nat.lt_of_le_of_lt (Nat.sub_le _ _) a.isLt)

theorem down_inside {s : State} {w : Width} {a : Word} (h : a.toNat + widthBytes w ≤ s.cfg.memSize) :
    (down w a).toNat + widthBytes w ≤ s.cfg.memSize := by
  rw [down_toNat]
  omega

theorem get_toNat (v : Word) (n : Nat) : (get v 0 n).toNat = v.toNat % 2 ^ n := by simp [get]

theorem rotateRight_by_zero (v : Word) : v.rotateRight 0 = v := by simp [BitVec.rotateRight, BitVec.rotateRightAux]

section Arm7
variable {s : State} (hp : s.cfg.misalign = .arm7) (he : s.bigEndian = false)
include hp he

theorem dataRead_arm7_misaligned (k : LoadKind) {a : Word} (h : a.toNat % widthBytes (loadWidth k) ≠ 0) :
    s.dataRead k a = s.readArm7 k a := by
  rw [State.dataRead, (misaligned_iff _ _).mpr h, hp, he]
  rfl

/-- A word load of any address: an aligned one is rotated by 0. -/
theorem dataRead_arm7_word (a : Word) :
    s.dataRead .word a = (s.memRead (down .word a) .word).map fun (v, t) => (v.rotateRight (8 * (a.toNat % 4)), t) := by
  by_cases h : a.toNat % 4 = 0
  · rw [dataRead_exact (.inl h), down_of_aligned h, h]
    simp only [extended, Nat.mul_zero, rotateRight_by_zero]
    rfl
  · rw [dataRead_arm7_misaligned hp he .word h, State.readArm7, alignDown_eq, get_toNat]
    cases s.memRead (down .word a) .word <;> rfl

/-- A halfword load of any address: an aligned one is rotated by 0. -/
theorem dataRead_arm7_half (a : Word) :
    s.dataRead .half a =
      (s.memRead (down .half a) .half).map fun (v, t) => ((extended .half v).rotateRight (8 * (a.toNat % 2)), t) := by
  by_cases h : a.toNat % 2 = 0
  · rw [dataRead_exact (.inl h), down_of_aligned h, h]
    simp only [Nat.mul_zero, rotateRight_by_zero]
    rfl
  · rw [dataRead_arm7_misaligned hp he .half h, State.readArm7, alignDown_eq, get_toNat]
    cases s.memRead (down .half a) .half <;> simp only [extend_eq] <;> rfl

theorem dataRead_arm7_signedHalf {a : Word} (h : a.toNat % 2 ≠ 0) :
    s.dataRead .signedHalf a = (s.memRead a .byte).map fun (v, t) => (extended .signedByte v, t) := by
  rw [dataRead_arm7_misaligned hp he .signedHalf h, State.readArm7, readExact_eq]
  rfl

/-- A store to any address goes to the address aligned down. -/
theorem dataWrite_arm7 (w : Width) (a v : Word) : s.dataWrite w a v = s.memWrite (down w a) w v := by
  by_cases h : a.toNat % widthBytes w = 0
  · rw [dataWrite_exact v (.inl h), down_of_aligned h]
  · rw [State.dataWrite, (misaligned_iff _ _).mpr h, hp, he, alignDown_eq]
    rfl

end Arm7

/-! ### The policies in internal memory -/

theorem extractLsb'_setWidth_low {n : Nat} (v : BitVec n) (h : n ≤ 32) : (v.setWidth 32).extractLsb' 0 n = v := by
  rw [← BitVec.setWidth_eq_extractLsb' h, BitVec.setWidth_setWidth_of_le v h, BitVec.setWidth_eq]

theorem extended_valueAt_half (s : State) (b : Nat) : extended .half (valueAt s .half b) = (halfAt s b).setWidth 32 := by
  simp only [extended, valueAt, extractLsb'_setWidth_low _ (show 16 ≤ 32 by decide)]

theorem extended_valueAt_signedHalf (s : State) (b : Nat) :
    extended .signedHalf (valueAt s .half b) = (halfAt s b).signExtend 32 := by
  simp only [extended, valueAt, extractLsb'_setWidth_low _ (show 16 ≤ 32 by decide)]

theorem extended_valueAt_signedByte (s : State) (b : Nat) :
    extended .signedByte (valueAt s .byte b) = (byteAt s b).signExtend 32 := by
  simp only [extended, valueAt, extractLsb'_setWidth_low _ (show 8 ≤ 32 by decide)]

theorem dataRead_plain_inside {s : State} (hp : s.cfg.misalign = .plainBytes) (k : LoadKind) {a : Word}
    (h : a.toNat + widthBytes (loadWidth k) ≤ s.cfg.memSize) :
    s.dataRead k a = .ok (extended k (valueAt s (loadWidth k) a.toNat), s) := by
  rw [dataRead_exact (.inr hp), memRead_inside h]
  rfl

theorem dataWrite_plain_inside {s : State} (hp : s.cfg.misalign = .plainBytes) (w : Width) {a : Word}
    (h : a.toNat + widthBytes w ≤ s.cfg.memSize) (v : Word) :
    s.dataWrite w a v = .ok { s with mem := Memory.writeBytes s.mem a.toNat (widthBytesOf s w v) } := by
  rw [dataWrite_exact v (.inr hp), memWrite_inside h]

section Arm7Inside
variable {s : State} {a : Word} (hp : s.cfg.misalign = .arm7) (he : s.bigEndian = false)
include hp he

theorem dataRead_arm7_word_inside (h : a.toNat + 4 ≤ s.cfg.memSize) :
    s.dataRead .word a = .ok ((wordAt s (a.toNat - a.toNat % 4)).rotateRight (8 * (a.toNat % 4)), s) := by
  rw [dataRead_arm7_word hp he, memRead_inside (down_inside h), down_toNat]
  rfl

theorem dataRead_arm7_half_inside (h : a.toNat + 2 ≤ s.cfg.memSize) :
    s.dataRead .half a = .ok (((halfAt s (a.toNat - a.toNat % 2)).setWidth 32).rotateRight (8 * (a.toNat % 2)), s) := by
  rw [dataRead_arm7_half hp he, memRead_inside (down_inside h), down_toNat, ← extended_valueAt_half]
  rfl

theorem dataRead_arm7_signedHalf_inside (h : a.toNat + 1 ≤ s.cfg.memSize) (ho : a.toNat % 2 = 1) :
    s.dataRead .signedHalf a = .ok ((byteAt s a.toNat).signExtend 32, s) := by
  rw [dataRead_arm7_signedHalf hp he (by omega), memRead_inside h, ← extended_valueAt_signedByte]
  rfl

theorem dataWrite_arm7_inside (w : Width) (h : a.toNat + widthBytes w ≤ s.cfg.memSize) (v : Word) :
    s.dataWrite w a v =
      .ok { s with mem := Memory.writeBytes s.mem (a.toNat - a.toNat % widthBytes w) (widthBytesOf s w v) } := by
  rw [dataWrite_arm7 hp he, memWrite_inside (down_inside h), down_toNat]

end Arm7Inside

/-- Settles O50: over the whole address space by policy, and in internal memory from that and what the bus answers there. -/
theorem misalignPolicies : Obligations.MisalignPolicies := by
  refine ⟨fun s a v _ hin => ?_, fun s k a h => dataRead_exact h, fun s w a v h => dataWrite_exact v h,
    fun s a v hp => ⟨fun k => dataRead_refused hp k, fun w => dataWrite_refused hp w v⟩,
    fun s a v hp he => ⟨fun _ => dataRead_arm7_word hp he a, fun _ => dataRead_arm7_half hp he a,
      dataRead_arm7_signedHalf hp he, fun w _ => dataWrite_arm7 hp he w a v⟩⟩
  have hhalf : a.toNat + widthBytes .half ≤ s.cfg.memSize := by simp only [widthBytes]; omega
  refine ⟨fun h hp => ?refusedWord, fun h hp => ?refusedHalf, fun hp he => ?arm7, fun hp => ?plainBytes⟩
  case refusedWord => exact ⟨dataRead_refused hp .word h, dataWrite_refused hp .word v h⟩
  case refusedHalf => exact ⟨dataRead_refused hp .half h, dataRead_refused hp .signedHalf h, dataWrite_refused hp .half v h⟩
  case arm7 =>
    exact ⟨dataRead_arm7_word_inside hp he hin, dataRead_arm7_half_inside hp he hhalf,
      dataRead_arm7_signedHalf_inside hp he (by omega), dataWrite_arm7_inside hp he .word hin v,
      dataWrite_arm7_inside hp he .half hhalf v⟩
  case plainBytes =>
    rw [← extended_valueAt_half, ← extended_valueAt_signedHalf]
    exact ⟨dataRead_plain_inside hp .word hin, dataRead_plain_inside hp .half hhalf, dataRead_plain_inside hp .signedHalf hhalf,
      dataWrite_plain_inside hp .word hin v, dataWrite_plain_inside hp .half hhalf v⟩

/-! ### What a single store leaves alone (45_arm_load_store.md, 49_thumb_load_store_branch.md) -/

theorem onlyBytes_of_mem {s t : State} (h : t.mem = s.mem) (a : Word) (n : Nat) : onlyBytes s t a n := fun c _ => by rw [h]

/-- A data write that completes is the bus write at the address that the policy gives. -/
theorem dataWrite_storedAt {s t : State} {w : Width} {a v : Word} (h : s.dataWrite w a v = .ok t) :
    s.memWrite (storedAt s w a) w v = .ok t := by
  unfold storedAt
  by_cases hm : misaligned w a = true
  · cases hp : s.cfg.misalign with
    | fault => simp [State.dataWrite, hm, hp] at h
    | arm7 =>
      cases he : s.bigEndian with
      | true => simp [State.dataWrite, hm, hp, he] at h
      | false => simpa [State.dataWrite, hm, hp, he] using h
    | plainBytes => simpa [State.dataWrite, hm, hp] using h
  · rw [if_neg fun hs => hm hs.1]
    simpa [State.dataWrite, hm] using h

theorem dataWrite_onlyBytes {s t : State} {w : Width} {a v : Word} (h : s.dataWrite w a v = .ok t) :
    onlyBytes s t (storedAt s w a) (widthBytes w) :=
  memWrite_outside (dataWrite_storedAt h)

/-- The advance leaves what the policy and memory read, so it may come before the write. -/
theorem dataWrite_advance_onlyBytes {s t : State} {w : Width} {a v : Word} (h : s.advance.dataWrite w a v = .ok t) :
    onlyBytes s t (storedAt s w a) (widthBytes w) :=
  dataWrite_onlyBytes (s := s.advance) h

theorem writeBack_onlyBytes {s t : State} {a : Word} {n : Nat} (h : onlyBytes s t a n) (rn : Reg) (wb : Option Word) :
    onlyBytes s (t.writeBack rn wb) a n := fun c hc => by rw [State.writeBack_mem, h c hc]

theorem storeWord_onlyBytes {s t : State} {address : Result (Word × Option Word)} {rn rd : Reg} {a : Word} {wb : Option Word}
    (ha : address = .ok (a, wb)) (h : s.storeWord address rn rd = .ok t) : onlyBytes s t (storedAt s .word a) 4 := by
  obtain ⟨_, _, u, ha', hw, rfl⟩ := storeWord_ok h
  cases ha.symm.trans ha'
  exact writeBack_onlyBytes (dataWrite_advance_onlyBytes hw) rn wb

theorem storeNarrow_onlyBytes {s t : State} {tag : Tag} {w : Width} {address : Result (Word × Option Word)} {rn rd : Reg} {a : Word}
    {wb : Option Word} (ha : address = .ok (a, wb)) (h : s.storeNarrow tag w address rn rd = .ok t) :
    onlyBytes s t (storedAt s w a) (widthBytes w) := by
  obtain ⟨_, _, _, u, ha', hw, rfl⟩ := storeNarrow_ok h
  cases ha.symm.trans ha'
  exact writeBack_onlyBytes (dataWrite_advance_onlyBytes hw) rn wb

/-- The load of a swap leaves the configuration and memory, so its store goes where the state before says. -/
theorem swap_onlyBytes {s t : State} {k : LoadKind} {rn rd rm : Reg} (h : s.swap k rn rd rm = .ok t) :
    onlyBytes s t (storedAt s (loadWidth k) (s.readReg rn)) (widthBytes (loadWidth k)) := by
  obtain ⟨_, old, u, v, hr, hw, rfl⟩ := swap_ok h
  have hf := dataRead_frame hr
  have hat : storedAt u (loadWidth k) (s.readReg rn) = storedAt s (loadWidth k) (s.readReg rn) := by
    simp only [storedAt, hf.bus.cfg, State.advance_cfg]
  intro c hc
  rw [State.writeReg_mem, dataWrite_onlyBytes hw c (hat ▸ hc), hf.mem, State.advance_mem]

theorem storeT_onlyBytes {s t : State} {w : Width} {a : Word} {rd : LowReg} (h : s.storeT w a rd = .ok t) :
    onlyBytes s t (storedAt s w a) (widthBytes w) :=
  dataWrite_advance_onlyBytes h

/-- A failed condition only advances, so an ARM instruction changes the bytes that its effect changes. -/
theorem armExec_onlyBytes {c : Cond} {effect : State → Result State} {s t : State} {a : Word} {n : Nat}
    (h : armExec c effect s = .next t) (he : effect s = .ok t → onlyBytes s t a n) : onlyBytes s t a n := by
  rcases armExec_next h with ⟨_, rfl⟩ | ⟨_, h⟩
  · exact onlyBytes_of_mem (State.advance_mem s) a n
  · exact he h

/-! ### The store families, each by its one meaning -/

theorem exec_str (x : SdtIndex) (c : Cond) (u : Bool) (rn rd : Reg) (o : SdtOffset) (s : State) :
    exec (.str x c u rn rd o) s = armExec c (fun s => s.storeWord (sdtResult s x u rn rd o) rn rd) s := by
  cases x <;> cases o <;> rfl

theorem exec_strb (x : SdtIndex) (c : Cond) (u : Bool) (rn rd : Reg) (o : SdtOffset) (s : State) :
    exec (.strb x c u rn rd o) s = armExec c (fun s => s.storeNarrow .strbPc .byte (sdtResult s x u rn rd o) rn rd) s := by
  cases x <;> cases o <;> rfl

theorem exec_strh (c : Cond) (p u w : Bool) (rn rd : Reg) (o : HalfOffset) (s : State) :
    exec (.strh c p u w rn rd o) s = armExec c (fun s => s.storeNarrow .strhPc .half (hdtResult s p u w rn rd o) rn rd) s := by
  cases o <;> rfl

theorem exec_swp (c : Cond) (rn rd rm : Reg) (s : State) :
    exec (.swp c rn rd rm) s = armExec c (fun s => s.swap .word rn rd rm) s := rfl

theorem exec_swpb (c : Cond) (rn rd rm : Reg) (s : State) :
    exec (.swpb c rn rd rm) s = armExec c (fun s => s.swap .byte rn rd rm) s := rfl

theorem scale4_eq {n : Nat} (f : BitVec n) : scale4 f = BitVec.ofNat 32 (f.toNat * 4) := by
  apply BitVec.eq_of_toNat_eq
  simp [scale4, BitVec.toNat_mul, Nat.mul_mod]

theorem scale2_eq {n : Nat} (f : BitVec n) : scale2 f = BitVec.ofNat 32 (f.toNat * 2) := by
  apply BitVec.eq_of_toNat_eq
  simp [scale2, BitVec.toNat_mul, Nat.mul_mod]

theorem exec_storeT (k : StoreT) (rd : LowReg) (s : State) :
    exec (.storeT k rd) s = thumbExec (fun s => s.storeT (storeTWidth k) (storeTAddr s k) rd) s := by
  cases k with
  | wordReg | byteReg | halfReg => rfl
  | sp n | wordImm n => simp only [storeTAddr, ← scale4_eq]; rfl
  | byteImm n => simp only [storeTAddr, BitVec.ofNat_toNat]; rfl
  | halfImm n => simp only [storeTAddr, ← scale2_eq]; rfl

/-- Settles O54: each family stores by one data write, whose address the state before gives. -/
theorem frameSingleStores : Obligations.FrameSingleStores := by
  refine ⟨fun x c u rn rd o s t a wb ha => ⟨fun h => ?str, fun h => ?strb⟩, fun c p u w rn rd o s t a wb ha h => ?strh,
    fun c rn rd rm s t => ⟨fun h => ?swp, fun h => ?swpb⟩, fun k rd s t h => ?storeT⟩
  case str => exact armExec_onlyBytes (exec_str x c u rn rd o s ▸ h) (storeWord_onlyBytes ha)
  case strb => exact armExec_onlyBytes (exec_strb x c u rn rd o s ▸ h) (storeNarrow_onlyBytes ha)
  case strh => exact armExec_onlyBytes (exec_strh c p u w rn rd o s ▸ h) (storeNarrow_onlyBytes ha)
  case swp => exact armExec_onlyBytes (exec_swp c rn rd rm s ▸ h) swap_onlyBytes
  case swpb => exact armExec_onlyBytes (exec_swpb c rn rd rm s ▸ h) swap_onlyBytes
  case storeT => exact storeT_onlyBytes (thumbExec_next (exec_storeT k rd s ▸ h))

end Sys2Proof.Claims
end

section
/-! The opcode tables (30_encoding.md R133): two rows whose values differ at a bit that both masks fix accept no word in common. -/
namespace Sys2Proof

/-- The values of the two rows differ at a bit that both masks fix. -/
def Row.Apart {w : Nat} (r q : Row w) : Prop := r.value &&& (r.mask &&& q.mask) ≠ q.value &&& (r.mask &&& q.mask)

theorem Row.accepts_iff {w : Nat} {r : Row w} {v : BitVec w} : r.accepts v = true ↔ v &&& r.mask = r.value := beq_iff_eq

/-- A row's value has the bits of every word of the row where the row's mask fixes them. -/
theorem Row.value_and_of_accepts {w : Nat} {r : Row w} {v : BitVec w} (h : r.accepts v = true) (m : BitVec w) :
    r.value &&& (r.mask &&& m) = v &&& (r.mask &&& m) := by
  rw [← Row.accepts_iff.mp h, BitVec.and_assoc, ← BitVec.and_assoc r.mask, BitVec.and_self]

theorem Row.Apart.not_accepts_both {w : Nat} {r q : Row w} (h : r.Apart q) (v : BitVec w) :
    ¬ (r.accepts v = true ∧ q.accepts v = true) := by
  rintro ⟨hr, hq⟩
  refine h ?_
  calc r.value &&& (r.mask &&& q.mask) = v &&& (r.mask &&& q.mask) := Row.value_and_of_accepts hr q.mask
    _ = v &&& (q.mask &&& r.mask) := by rw [BitVec.and_comm r.mask]
    _ = q.value &&& (q.mask &&& r.mask) := (Row.value_and_of_accepts hq r.mask).symm
    _ = q.value &&& (r.mask &&& q.mask) := by rw [BitVec.and_comm r.mask]

/-! The masks and values are numerals, so each pair of rows is a closed comparison of two words; no word is enumerated. -/

theorem armRows_pairwise_apart : armRows.Pairwise Row.Apart := by
  unfold Row.Apart
  decide +kernel

theorem thumbRows_pairwise_apart : thumbRows.Pairwise Row.Apart := by
  unfold Row.Apart
  decide +kernel

theorem rowOf_eq_none_iff {w : Nat} {rows : List (Row w)} {v : BitVec w} :
    rowOf rows v = none ↔ ∀ r ∈ rows, r.accepts v = false := by
  simp [rowOf]

theorem decodeArm_of_rowOf_none {w : Word} (h : rowOf armRows w = none) : decodeArm w = .error (.undefinedArm w) := by
  rw [decodeArm, h]

theorem decodeThumb_of_rowOf_none {h : Half} (hn : rowOf thumbRows h = none) :
    decodeThumb h = .error (.undefinedThumb h) := by
  rw [decodeThumb, hn]

/-- Settles O5: any two rows of a table differ at a bit that both fix, and the decoder finds no row where none accepts. -/
theorem tableRowsAreDisjoint : Obligations.TableRowsAreDisjoint := by
  refine ⟨armRows_pairwise_apart.imp fun h => h.not_accepts_both, thumbRows_pairwise_apart.imp fun h => h.not_accepts_both,
    fun w hw => ?arm, fun h hh => ?thumb⟩
  case arm => exact decodeArm_of_rowOf_none (rowOf_eq_none_iff.mpr hw)
  case thumb => exact decodeThumb_of_rowOf_none (rowOf_eq_none_iff.mpr hh)

end Sys2Proof
end

section
/-! Conditions, the barrel shifter, the adder and the exchange of instruction sets (40_core_condition_shifter.md, 41_arm_branch.md). -/
namespace Sys2Proof.Claims
open Sys2Proof Sys2Proof.Machine

/-! ### The adder (R160, R161) -/

theorem addWithCarry_value (x y : Word) (c : Bool) : (addWithCarry x y c).value = x + y + BitVec.ofNat 32 c.toNat := by
  simp only [addWithCarry, BitVec.ofNat_add, BitVec.ofNat_toNat, BitVec.setWidth_eq]

/-- The machine's sum is the exact one. -/
theorem addWithCarry_eq_addOut (x y : Word) (c : Bool) :
    ((addWithCarry x y c).value, (addWithCarry x y c).carry, (addWithCarry x y c).overflow) = addOut x y c := by
  rw [addWithCarry_value]
  rfl

/-- The complement of a signed value. -/
theorem toInt_not_word (y : Word) : (~~~y).toInt = -y.toInt - 1 := by
  have hy := y.isLt
  simp only [BitVec.toInt_eq_toNat_cond, BitVec.toNat_not]
  split_ifs <;> omega

/-- Adding the complement and the carry subtracts the operand and the borrow: each part of the sum is the part of the difference. -/
theorem addOut_not_eq_subOut (x y : Word) (c : Bool) : addOut x (~~~y) c = subOut x y (!c) := by
  have hborrow : c.toNat + (!c).toNat = 1 := by cases c <;> rfl
  have hvalue : x + ~~~y + BitVec.ofNat 32 c.toNat = x - y - BitVec.ofNat 32 (!c).toNat := by
    cases c <;> simp [BitVec.not_eq_neg_add, BitVec.sub_eq_add_neg, BitVec.add_assoc]
  have hcarry : 2 ^ 32 ≤ x.toNat + (~~~y).toNat + c.toNat ↔ y.toNat + (!c).toNat ≤ x.toNat := by
    rw [BitVec.toNat_not]
    omega
  have hsigned : x.toInt + (~~~y).toInt + c.toNat = x.toInt - y.toInt - (!c).toNat := by
    rw [toInt_not_word]
    omega
  simp only [addOut, subOut, hvalue, hcarry, hsigned]

/-- Settles O9: the adder's parts are those of the exact sum, and the complement turns the sum into the difference. -/
theorem adderResults : Obligations.AdderResults :=
  ⟨addWithCarry_eq_addOut, fun x y c => (addWithCarry_eq_addOut x (~~~y) c).trans (addOut_not_eq_subOut x y c)⟩

/-! ### The barrel shifter (R150, R155 to R157): one value and one carry for every amount above 0 -/

theorem shift_zero (t : ShiftType) (v : Word) (c : Bool) : shift t 0 v c = (v, c) := rfl

/-- From 32 on an arithmetic shift leaves copies of the sign. -/
theorem sshiftRight_of_ge {n : Nat} (h : 32 ≤ n) (v : Word) : v.sshiftRight n = if v.getLsbD 31 then 0xFFFFFFFF else 0 := by
  apply BitVec.eq_of_getLsbD_eq
  intro i hi
  rw [BitVec.getLsbD_sshiftRight, if_neg (by omega), BitVec.msb_eq_getLsbD_last, decide_eq_false (by omega), Bool.not_false,
    Bool.true_and]
  split_ifs with hsign
  · exact hsign.trans (BitVec.getLsbD_allOnes.trans (decide_eq_true hi)).symm
  · simpa using hsign

/-- A rotation by any amount, bit by bit. -/
theorem rotateRight_getLsbD (v : Word) (n : Nat) {i : Nat} (hi : i < 32) : (v.rotateRight n).getLsbD i = v.getLsbD ((i + n) % 32) := by
  rw [BitVec.getLsbD_rotateRight]
  by_cases h : i < 32 - n % 32
  · simp only [h, decide_true, cond_true]
    congr 1
    omega
  · simp only [h, hi, decide_true, decide_false, cond_false, Bool.true_and]
    congr 1
    omega

section Amount
variable {n : Nat} (hn : 0 < n) (v : Word) (c : Bool)
include hn

theorem shift_lsl : shift .lsl n v c = (v <<< n, decide (n ≤ 32) && v.getLsbD (32 - n)) := by
  simp only [shift, Nat.ne_of_gt hn, if_false]
  split_ifs with hlt heq
  · simp [Nat.le_of_lt hlt]
  · simp [heq, BitVec.shiftLeft_eq_zero]
  · simp [BitVec.shiftLeft_eq_zero (show 32 ≤ n by omega), show ¬ n ≤ 32 by omega]

theorem shift_lsr : shift .lsr n v c = (v >>> n, v.getLsbD (n - 1)) := by
  simp only [shift, Nat.ne_of_gt hn, if_false]
  split_ifs with hlt heq
  · rfl
  · simp [heq, BitVec.ushiftRight_eq_zero]
  · simp [BitVec.ushiftRight_eq_zero (show 32 ≤ n by omega), BitVec.getLsbD_of_ge v (n - 1) (by omega)]

theorem shift_asr : shift .asr n v c = (v.sshiftRight n, v.getLsbD (min (n - 1) 31)) := by
  simp only [shift, Nat.ne_of_gt hn, if_false]
  by_cases h : n < 32
  · rw [if_pos h, Nat.min_eq_left (by omega)]
  · rw [if_neg h, sshiftRight_of_ge (by omega), Nat.min_eq_right (by omega)]

theorem shift_ror : shift .ror n v c = (v.rotateRight n, (v.rotateRight n).getLsbD 31) := by
  simp only [shift, Nat.ne_of_gt hn, if_false, BitVec.rotateRight_mod_eq_rotateRight]
  rw [rotateRight_getLsbD v n (by omega)]
  split_ifs with h
  · rw [← BitVec.rotateRight_mod_eq_rotateRight, h, rotateRight_by_zero, show (31 + n) % 32 = 31 by omega]
  · rw [show n % 32 - 1 = (31 + n) % 32 by omega]

end Amount

theorem shiftReg_eq (t : ShiftType) (rs v : Word) (c : Bool) : shiftReg t rs v c = shift t (rs.toNat % 256) v c := by
  simp [shiftReg, get]

theorem shiftImm_of_ne_zero (t : ShiftType) {n : BitVec 5} (hn : n ≠ 0) (v : Word) (c : Bool) :
    shiftImm t n v c = shift t n.toNat v c := if_neg hn

theorem shiftImm_lsl_zero (v : Word) (c : Bool) : shiftImm .lsl 0 v c = (v, c) := rfl

theorem shiftImm_lsr_zero (v : Word) (c : Bool) : shiftImm .lsr 0 v c = (0, v.getLsbD 31) := rfl

theorem shiftImm_asr_zero (v : Word) (c : Bool) :
    shiftImm .asr 0 v c = (if v.getLsbD 31 then 0xFFFFFFFF else 0, v.getLsbD 31) := rfl

/-- RRX puts the carry above the value's upper 31 bits. -/
theorem rrx_toNat (v : Word) (c : Bool) : (rrx v c).1.toNat = c.toNat * 2 ^ 31 + v.toNat / 2 := by
  have hcarry : (put 32 31 (flagBits c)).toNat = c.toNat <<< 31 := by cases c <;> rfl
  have hvalue : (v >>> 1).toNat = v.toNat / 2 := by rw [BitVec.toNat_ushiftRight, Nat.shiftRight_one]
  have hlt : v.toNat / 2 < 2 ^ 31 := by have := v.isLt; omega
  rw [rrx, BitVec.toNat_or, hcarry, hvalue, ← Nat.shiftLeft_add_eq_or_of_lt hlt, Nat.shiftLeft_eq]

theorem immOperand_getLsbD (rot : BitVec 4) (imm8 : BitVec 8) (c : Bool) {i : Nat} (hi : i < 32) :
    (immOperand rot imm8 c).1.getLsbD i = imm8.getLsbD ((i + 2 * rot.toNat) % 32) := by
  rw [immOperand, rotateRight_getLsbD _ _ hi, BitVec.getLsbD_setWidth, decide_eq_true (Nat.mod_lt _ (by omega)), Bool.true_and]

/-- Settles O8: the closed form of each shift above 0, its value read as a number or bit by bit; then the amounts of the three forms. -/
theorem shifterResults : Obligations.ShifterResults := by
  refine ⟨shift_zero, fun n v c hn => ?_, shiftReg_eq, fun t n v c hn => shiftImm_of_ne_zero t hn v c,
    fun v c => ⟨shiftImm_lsl_zero v c, shiftImm_lsr_zero v c, shiftImm_asr_zero v c, rrx_toNat v c, rfl⟩,
    fun rot imm8 c => ⟨fun i hi => immOperand_getLsbD rot imm8 c hi, rfl⟩⟩
  rw [shift_lsl hn, shift_lsr hn, shift_asr hn, shift_ror hn]
  refine ⟨?lsl, rfl, ?lsr, rfl, ?asr, rfl, fun i hi => rotateRight_getLsbD v n hi, rfl⟩
  case lsl => rw [BitVec.toNat_shiftLeft, Nat.shiftLeft_eq]
  case lsr => rw [BitVec.toNat_ushiftRight, Nat.shiftRight_eq_div_pow]
  case asr => rw [BitVec.toInt_sshiftRight, Int.shiftRight_eq_div_pow, Nat.cast_pow, Nat.cast_ofNat]

/-! ### Exchanging the instruction set (R167; 41_arm_branch.md R183, R184; 48_thumb_data_ops.md R352) -/

/-- The outcome of an instruction that ends in `WritePC_Interwork`. -/
theorem finish_writePcInterwork (s : State) (v : Word) :
    finish (s.writePcInterwork v) =
      if v.getLsbD 0 then .next { s with cpsr := withThumb s.cpsr true, pc := v &&& 0xFFFFFFFE#32 }
      else if v.getLsbD 1 then .fault (.unpredictable .bxUnalignedArm)
      else .next { s with cpsr := withThumb s.cpsr false, pc := v } := by
  rw [writePcInterwork_eq, setThumb_eq, setThumb_eq]
  split_ifs <;> rfl

/-- A register write sees the file and the bank alone, so the advance may come before or after it. -/
theorem writeReg_advance (s : State) (r : Reg) (v : Word) : s.advance.writeReg r v = (s.writeReg r v).advance := by
  rw [State.writeReg_eq s.advance, State.writeReg_regs_congr (State.advance_regs s) (State.advance_bank s), State.writeReg_eq s]
  rfl

theorem branchLinkExchange_of_ne_pc (s : State) {rm : Reg} (h : rm ≠ 15) :
    s.branchLinkExchange rm = (s.writeReg 14 (s.pc + 4)).advance.writePcInterwork (s.readReg rm) := by
  rw [State.branchLinkExchange, beq_false_of_ne h, faultIf_false, ok_bind, writeReg_advance]

theorem branchLinkExchange_pc (s : State) : s.branchLinkExchange 15 = .error (.unpredictable .blxPc) := rfl

theorem exec_bx (c : Cond) (rm : Reg) (s : State) :
    exec (.bx c rm) s = armExec c (fun s => s.advance.writePcInterwork (s.readReg rm)) s := rfl

theorem exec_blxReg (c : Cond) (rm : Reg) (s : State) :
    exec (.blxReg c rm) s = armExec c (fun s => s.branchLinkExchange rm) s := rfl

theorem exec_bxT (h2 : Bool) (rs : LowReg) (s : State) :
    exec (.bxT h2 rs) s = finish (s.advance.writePcInterwork (s.readReg (hiReg h2 rs))) := rfl

/-- Settles O15: each form ends in `WritePC_Interwork`, whose PC write overrides the advance. -/
theorem branchExchange : Obligations.BranchExchange := by
  refine ⟨fun c rm s hc => ?bx, fun c rm s hc hrm => ?blx, fun c s hc => ?blxPc, fun h2 rs s => ?bxT⟩
  case bx =>
    rw [exec_bx, armExec_of_passed hc]
    exact finish_writePcInterwork s.advance _
  case blx =>
    rw [exec_blxReg, armExec_of_passed hc, branchLinkExchange_of_ne_pc s hrm]
    exact finish_writePcInterwork (s.writeReg 14 (s.pc + 4)).advance _
  case blxPc => rw [exec_blxReg, armExec_of_passed hc, branchLinkExchange_pc, finish_error]
  case bxT =>
    rw [exec_bxT]
    exact finish_writePcInterwork s.advance _

/-! ### Conditions (R142, R145, R146; 47_swi_and_undefined.md R311) -/

theorem condPassed_of_cpsr {s t : State} (h : t.cpsr = s.cpsr) (c : Cond) : t.condPassed c = s.condPassed c := by
  simp only [State.condPassed, State.flagN, State.flagZ, State.flagC, State.flagV, h]

/-- Every instruction with a condition is an effect behind that condition. -/
theorem exec_eq_armExec {i : Instr} {c : Cond} (h : i.cond? = some c) :
    ∃ effect : State → Result State, ∀ s, exec i s = armExec c effect s := by
  cases i
  all_goals cases h -- a Thumb instruction has no condition, and is done here
  all_goals exact ⟨_, fun _ => rfl⟩

theorem exec_of_failed {i : Instr} {c : Cond} {s : State} (h : i.cond? = some c) (hc : s.condPassed c = false) :
    exec i s = .next s.advance := by
  obtain ⟨effect, he⟩ := exec_eq_armExec h
  rw [he, armExec_of_failed hc]

/-- A fetch of a word leaves T clear and the program counter as it was, so the advance after it is by 4. -/
theorem advance_of_fetch_arm {s t : State} {w : Word} (h : s.fetch = .ok (.arm w, t)) : t.advance = { t with pc := s.pc + 4 } := by
  obtain ⟨hf, ⟨_, v, hv⟩ | ⟨hT, _⟩⟩ := fetch_frame h
  · cases hv
  · simp [State.advance, State.width, State.thumb_of_cpsr hf.bus.cpsr, hT, hf.bus.pc]

theorem step_of_decode_ok {s t : State} {code : Code} {i : Instr} (hh : s.halted = false) (hf : s.fetch = .ok (code, t))
    (hd : decode code = .ok i) : step s = exec i t := by
  simp only [step, hh, hf, hd, Bool.false_eq_true, if_false]

theorem step_of_decode_error {s t : State} {code : Code} {r : Rejected} (hh : s.halted = false) (hf : s.fetch = .ok (code, t))
    (hd : decode code = .error r) : step s = .next t.advance := by
  simp only [step, hh, hf, hd, Bool.false_eq_true, if_false, State.undefined]

/-- A word whose condition fails only advances: a row's instruction by its condition, a word of no row as UNDEFINED. -/
theorem step_of_failed {s t : State} {w : Word} (hh : s.halted = false) (hf : s.fetch = .ok (.arm w, t))
    (hc : s.condPassed (Cond.ofBits (w.extractLsb' 28 4)) = false) : step s = .next t.advance := by
  cases hd : decodeArm w with
  | ok i =>
    have ht : t.condPassed (Cond.ofBits (get w 28 4)) = false := (condPassed_of_cpsr (fetch_frame hf).1.bus.cpsr _).trans hc
    rw [step_of_decode_ok hh hf hd, exec_of_failed (decodeArm_cond hd) ht]
  | error r => exact step_of_decode_error hh hf hd

/-- Settles O6: the condition is in front of every effect; the table of R145 is that of `condHolds`. -/
theorem failedConditionOnlyAdvances : Obligations.FailedConditionOnlyAdvances := by
  refine ⟨fun s t w hh hf hc => ?step, fun i c s hi hc => exec_of_failed hi hc, fun s => ⟨rfl, rfl⟩, fun s => ?table⟩
  case step => rw [step_of_failed hh hf hc, advance_of_fetch_arm hf]
  case table => -- `Cond.ofBits` names the code's row, `condHolds` is the row over the flags, and each flag is its CPSR bit
    simp [State.condPassed, condHolds, Cond.ofBits, State.flagN, State.flagZ, State.flagC, State.flagV]

end Sys2Proof.Claims
end

section
/-! The ARM branches B and BL (41_arm_branch.md R180 to R182). -/
namespace Sys2Proof.Claims
open Sys2Proof Sys2Proof.Machine

theorem branchTarget_eq_ofInt (s : State) (offset24 : BitVec 24) :
    s.branchTarget offset24 = s.pc + 8 + BitVec.ofInt 32 (offset24.toInt * 4) := by
  rw [BitVec.ofInt_mul]
  rfl

/-- The offset is a whole number of words, so the target lies in a word as the pc does. -/
theorem branchTarget_toNat_mod_four (s : State) (offset24 : BitVec 24) :
    (s.branchTarget offset24).toNat % 4 = s.pc.toNat % 4 := by
  rw [State.branchTarget, BitVec.toNat_add, BitVec.toNat_add, BitVec.toNat_mul, show (8 : Word).toNat = 8 from rfl,
    show (4 : Word).toNat = 4 from rfl]
  omega

/-- The PC write of B and BL does not fault at an aligned pc. -/
theorem finish_writePcArm_branchTarget {s : State} (h : s.pc.toNat % 4 = 0) (t : State) (offset24 : BitVec 24) :
    finish (t.writePcArm (s.branchTarget offset24)) =
      .next { t with pc := s.pc + 8 + BitVec.ofInt 32 (offset24.toInt * 4) } := by
  rw [writePcArm_eq, if_pos ((branchTarget_toNat_mod_four s offset24).trans h), finish_ok, branchTarget_eq_ofInt]

theorem exec_b (c : Cond) (offset24 : BitVec 24) (s : State) :
    exec (.b c offset24) s = armExec c (fun s => s.advance.writePcArm (s.branchTarget offset24)) s := rfl

theorem exec_bl (c : Cond) (offset24 : BitVec 24) (s : State) :
    exec (.bl c offset24) s =
      armExec c (fun s => (s.advance.writeReg 14 (s.pc + 4)).writePcArm (s.branchTarget offset24)) s := rfl

/-- Settles O14: both forms end in `WritePC_Arm` of an aligned target, whose PC write overrides the advance. -/
theorem branchTargets : Obligations.BranchTargets := by
  refine fun c offset24 s hc hpc => ⟨?b, ?bl⟩
  case b =>
    rw [exec_b, armExec_of_passed hc]
    exact finish_writePcArm_branchTarget hpc s.advance offset24
  case bl =>
    rw [exec_bl, armExec_of_passed hc, writeReg_advance]
    exact finish_writePcArm_branchTarget hpc (s.writeReg 14 (s.pc + 4)).advance offset24

end Sys2Proof.Claims
end

section
/-! The data-processing operations (42_arm_data_processing.md R190 to R193, R210): one meaning for the 36 forms that write Rd and one for
the 12 comparisons, and what operand 2, the operation and the writes answer. -/
namespace Sys2Proof.Claims
open Sys2Proof Sys2Proof.Machine

/-! ### Operand 2 (R191) -/

/-- Operand 2 in any form, as the machine evaluates it; `named` are the registers named beside it. -/
def operandResult (s : State) (named : List Reg) : Operand2 → Result (Word × Bool)
  | .imm rot imm8 => s.operandImm rot imm8
  | .rsi n t rm => s.operandRsi n t rm
  | .rsr rs t rm => s.operandRsr named rs t rm

theorem operandOk_reverse (o : Operand2) (named : List Reg) : operandOk o named.reverse = operandOk o named := by
  cases o with
  | imm | rsi => rfl
  | rsr => simp only [operandOk, List.all_reverse]

/-- The check of the register-shift form passes exactly where no named register is R15. -/
theorem operandRsr_check (named : List Reg) (rs rm : Reg) (t : ShiftType) :
    (named.contains 15 || rm == 15 || rs == 15) = !operandOk (.rsr rs t rm) named := by
  have hnamed : named.contains 15 = !named.all (· != 15) := by
    rw [Bool.eq_iff_iff]
    simp
  rw [hnamed, operandOk, Bool.not_and, Bool.not_and, bne, bne, Bool.not_not, Bool.not_not]
  ac_rfl

/-- Operand 2 has its value, or a register-shift form names R15. -/
theorem operandResult_eq (s : State) (named : List Reg) (o : Operand2) :
    operandResult s named o = if operandOk o named then .ok (operand s o) else .error (.unpredictable .dpRegShiftPc) := by
  cases o with
  | imm | rsi => rfl
  | rsr rs t rm =>
    rw [operandResult, State.operandRsr, operandRsr_check named rs rm t]
    cases operandOk (.rsr rs t rm) named <;> rfl

/-! ### The operation (R194 to R210) -/

/-- The machine's operation of each `DpOp`, on the carry flag and the value of Rn. -/
def dpAlu (op : DpOp) (c : Bool) (x : Word) : Word × Bool → AluResult :=
  match op with
  | .and => aluAnd x
  | .eor => aluEor x
  | .sub => aluSub x
  | .rsb => aluRsb x
  | .add => aluAdd x
  | .adc => aluAdc c x
  | .sbc => aluSbc c x
  | .rsc => aluRsc c x
  | .orr => aluOrr x
  | .mov => aluMov
  | .bic => aluBic x
  | .mvn => aluMvn

/-- The result with C and V, where `v` is the V flag before. -/
def aluSummary (r : AluResult) (v : Bool) : Word × Bool × Bool := (r.value, r.carry, r.overflow.getD v)

theorem aluSummary_arithmetic_add (x y : Word) (c v : Bool) : aluSummary (arithmetic (addWithCarry x y c)) v = addOut x y c :=
  addWithCarry_eq_addOut x y c

theorem aluSummary_arithmetic_sub (x y : Word) (c v : Bool) :
    aluSummary (arithmetic (addWithCarry x (~~~y) c)) v = subOut x y (!c) :=
  (aluSummary_arithmetic_add x (~~~y) c v).trans (addOut_not_eq_subOut x y c)

/-- Each operation gives the row of R210: the logical ones by definition, the others by the adder. -/
theorem aluSummary_dpAlu (op : DpOp) (c v : Bool) (x : Word) (o : Word × Bool) :
    aluSummary (dpAlu op c x o) v = dpOut op x o.1 o.2 c v := by
  cases op with
  | and | eor | orr | mov | bic | mvn => rfl
  | add => exact aluSummary_arithmetic_add x o.1 false v
  | adc => exact aluSummary_arithmetic_add x o.1 c v
  | sub => exact aluSummary_arithmetic_sub x o.1 true v
  | sbc => exact aluSummary_arithmetic_sub x o.1 c v
  | rsb => exact aluSummary_arithmetic_sub o.1 x true v
  | rsc => exact aluSummary_arithmetic_sub o.1 x c v

/-- The operation whose result a comparison drops (R202 to R205). -/
def comparedBy : CmpOp → DpOp
  | .tst => .and
  | .teq => .eor
  | .cmp => .sub
  | .cmn => .add

theorem cmpOut_eq_dpOut (op : CmpOp) (x y : Word) (shc c v : Bool) :
    cmpOut op x y shc v = dpOut (comparedBy op) x y shc c v := by
  cases op <;> rfl

/-! ### The writes (R163, R192, R193) -/

theorem setFlags_eq (s : State) (r : AluResult) :
    s.setFlags r = { s with cpsr := flagsOf s r.value r.carry (r.overflow.getD s.flagV) } := by
  obtain ⟨value, carry, _ | overflow⟩ := r
  · exact setFlags_logical s value carry
  · exact setFlags_arithmetic s ⟨value, carry, overflow⟩

/-- `WriteDP` to a general register: the flags come from the CPSR before, which the register write keeps. -/
theorem writeDp_of_ne_pc (s : State) (setf : Bool) {rd : Reg} (hrd : rd ≠ 15) (r : AluResult) :
    s.writeDp setf rd r =
      .ok { s.writeReg rd r.value with
        cpsr := if setf then flagsOf s r.value r.carry (r.overflow.getD s.flagV) else s.cpsr } := by
  rw [State.writeDp, if_neg hrd]
  cases setf with
  | true => simp only [if_true, setFlags_eq, flagsOf, State.flagV, State.writeReg_cpsr]
  | false => rw [State.writeReg_eq]; rfl

/-! ### The forms, by one meaning each -/

/-- The machine lists Rd before Rn, `dpNamed` after it. -/
theorem exec_dp (op : DpOp) (c : Cond) (setf : Bool) (rn rd : Reg) (o : Operand2) (s : State) :
    exec (.dp op c setf rn rd o) s =
      armExec c (fun s => s.dataProc (operandResult s (dpNamed op rn rd).reverse o) (dpAlu op s.flagC (s.readReg rn)) setf rd) s := by
  cases op <;> cases o <;> rfl

theorem exec_dpCmp (op : CmpOp) (c : Cond) (rn rd : Reg) (o : Operand2) (s : State) :
    exec (.dpCmp op c rn rd o) s =
      armExec c (fun s => s.compare (operandResult s [rn] o) (dpAlu (comparedBy op) s.flagC (s.readReg rn))) s := by
  cases op <;> cases o <;> rfl

/-- Settles O10: every form is `dataProc` of its operation, whose summary is the row of R210. -/
theorem dataProcessingWritesRegister : Obligations.DataProcessingWritesRegister := by
  intro op c setf rn rd o s hc hrd hok
  rw [exec_dp, armExec_of_passed hc, State.dataProc, operandResult_eq, operandOk_reverse, if_pos hok, ok_bind,
    writeDp_of_ne_pc _ _ hrd, finish_ok, ← aluSummary_dpAlu]
  rfl -- the advance keeps the CPSR

/-- Settles O13: every form is `compare` of the operation whose result it drops. -/
theorem compareWritesFlags : Obligations.CompareWritesFlags := by
  intro op c rn rd o s hc hok
  rw [exec_dpCmp, armExec_of_passed hc, State.compare, operandResult_eq, if_pos hok, ok_bind, setFlags_eq,
    cmpOut_eq_dpOut (c := s.flagC), ← aluSummary_dpAlu]
  rfl -- the advance keeps the CPSR

end Sys2Proof.Claims
end

section
/-! The multiplies (43_arm_multiply.md R230 to R242): the machine's 64-bit values as the exact integers of the rules, what each shared
meaning writes for an admitted form, and the encodings that stop. -/
namespace Sys2Proof.Claims
open Sys2Proof Sys2Proof.Machine

/-! ### Values -/

theorem mul_eq_ofNat (x y : Word) : x * y = BitVec.ofNat 32 (x.toNat * y.toNat) := by
  rw [BitVec.ofNat_mul, BitVec.ofNat_toNat, BitVec.ofNat_toNat, BitVec.setWidth_eq, BitVec.setWidth_eq]

theorem mul_add_eq_ofNat (x y z : Word) : x * y + z = BitVec.ofNat 32 (x.toNat * y.toNat + z.toNat) := by
  rw [BitVec.ofNat_add, ← mul_eq_ofNat, BitVec.ofNat_toNat, BitVec.setWidth_eq]

/-- The pair `RdHi : RdLo` as a number. -/
theorem pair_eq_ofNat (s : State) (rdHi rdLo : Reg) :
    s.pair rdHi rdLo = BitVec.ofNat 64 ((s.readReg rdHi).toNat * 2 ^ 32 + (s.readReg rdLo).toNat) := by
  apply BitVec.eq_of_toNat_eq
  rw [State.pair, BitVec.toNat_append, ← Nat.shiftLeft_add_eq_or_of_lt (s.readReg rdLo).isLt, Nat.shiftLeft_eq, BitVec.toNat_ofNat]
  omega

theorem halfOf_toInt (top : Bool) (v : Word) : (halfOf top v).toInt = halfInt top v := by cases top <;> rfl

/-- The product of two words plus two words fits 64 bits: the greatest value is (2^32 - 1)^2 + 2 * (2^32 - 1) = 2^64 - 1 (R238). -/
theorem toNat_umul_add_add (x y a b : Word) :
    (umul x y + a.setWidth 64 + b.setWidth 64).toNat = x.toNat * y.toNat + a.toNat + b.toNat := by
  have hxy : x.toNat * y.toNat ≤ (2 ^ 32 - 1) * (2 ^ 32 - 1) := Nat.mul_le_mul (by omega) (by omega)
  rw [umul, BitVec.toNat_add, BitVec.toNat_add, BitVec.toNat_ofNat, BitVec.toNat_setWidth, BitVec.toNat_setWidth]
  omega

/-- The signed product of two halfwords fits a word (R242). -/
theorem toInt_ofInt_halfInt_mul (x y : Bool) (v w : Word) :
    (BitVec.ofInt 32 (halfInt x v * halfInt y w)).toInt = halfInt x v * halfInt y w := by
  rw [← halfOf_toInt, ← halfOf_toInt]
  have hlo : -2 ^ 30 ≤ (halfOf x v).toInt * (halfOf y w).toInt := BitVec.le_toInt_mul_toInt
  have hhi : (halfOf x v).toInt * (halfOf y w).toInt ≤ 2 ^ 30 := BitVec.toInt_mul_toInt_le
  exact BitVec.toInt_ofInt_eq_self (by omega) (by omega) (by omega)

/-! ### Registers and flags -/

theorem advance_writePair (s : State) (rdHi rdLo : Reg) (r : BitVec 64) :
    s.advance.writePair rdHi rdLo r = pairWritten s rdHi rdLo r := by
  rw [pairWritten, BitVec.setWidth_ushiftRight_eq_extractLsb, BitVec.setWidth_eq_extractLsb' (by omega)]
  rfl

theorem pairWritten_cpsr (s : State) (rdHi rdLo : Reg) (r : BitVec 64) : (pairWritten s rdHi rdLo r).cpsr = s.cpsr := by
  rw [pairWritten, State.writeReg_cpsr, State.writeReg_cpsr, State.advance_cpsr]

/-- Z and C after a multiply of a state whose CPSR the register writes have kept (R230). -/
theorem mulFlags_of_cpsr {s t : State} (h : t.cpsr = s.cpsr) (setf z : Bool) :
    (if setf then t.setMulFlags z else t) =
      { t with cpsr := if setf then withNZCV s.cpsr s.flagN z false s.flagV else s.cpsr } := by
  cases setf with
  | true => simp only [if_true, setMulFlags_eq, State.flagN, State.flagV, h]
  | false => rw [← h]; rfl

theorem setN_setMulFlags (s : State) (n z : Bool) :
    (s.setN n).setMulFlags z = { s with cpsr := withNZCV s.cpsr n z false s.flagV } := by
  unfold State.setMulFlags State.setN State.setZ State.setC
  congr 1
  rw [← setBits_eq, eq_comm]
  convert setBit_self _ 28 (by omega) using 2
  simp only [setBit_getLsbD, Nat.reduceLT, State.flagV]
  rfl

/-- N, Z and C after a signed long multiply of a state whose CPSR the register writes have kept (R230). -/
theorem mulFlagsSigned_of_cpsr {s t : State} (h : t.cpsr = s.cpsr) (setf n z : Bool) :
    (if setf then (t.setN n).setMulFlags z else t) =
      { t with cpsr := if setf then withNZCV s.cpsr n z false s.flagV else s.cpsr } := by
  cases setf with
  | true => simp only [if_true, setN_setMulFlags, State.flagV, h]
  | false => rw [← h]; rfl

/-- Q is set where `p`, and kept otherwise, in a state whose CPSR the register write has kept (R239). -/
theorem stickyQ_of_cpsr {s t : State} (h : t.cpsr = s.cpsr) (p : Prop) [Decidable p] :
    (if p then t.setQ true else t) = { t with cpsr := if p then s.cpsr ||| 0x08000000#32 else s.cpsr } := by
  rw [← h]
  split_ifs <;> rfl

/-! ### The register restrictions (R238, R241, R243): no fault for an admitted form -/

theorem longBad_eq (rdHi rdLo rs rm : Reg) : longBad rdHi rdLo rs rm = !longRegsOk rdHi rdLo rs rm := by
  simp only [longBad, longRegsOk, notPc, bne, Bool.not_and, Bool.not_not]
  ac_rfl

theorem longRegCheck_eq (op : LongMulOp) (c : Cond) (setf : Bool) (rdHi rdLo rs rm : Reg) :
    longRegCheck rdHi rdLo rs rm = !Instr.wellFormed (.longMul op c setf rdHi rdLo rs rm) := by
  have h : Instr.wellFormed (.longMul op c setf rdHi rdLo rs rm) =
      (longRegsOk rdHi rdLo rs rm && rdHi != rm && rdLo != rm) := by cases op <;> rfl
  rw [h, longRegCheck, longBad_eq]
  simp only [bne, Bool.not_and, Bool.not_not]

theorem mul_check_eq (c : Cond) (setf : Bool) (rd rs rm : Reg) :
    (rd == 15 || rm == 15 || rs == 15 || rd == rm) = !Instr.wellFormed (.mul c setf rd rs rm) := by
  simp only [Instr.wellFormed, notPc, bne, Bool.not_and, Bool.not_not]
  ac_rfl

theorem mla_check_eq (c : Cond) (setf : Bool) (rd rn rs rm : Reg) :
    (rd == 15 || rm == 15 || rs == 15 || rn == 15 || rd == rm) = !Instr.wellFormed (.mla c setf rd rn rs rm) := by
  simp only [Instr.wellFormed, notPc, bne, Bool.not_and, Bool.not_not]
  ac_rfl

theorem smlawy_check_eq (c : Cond) (rd rn rs : Reg) (y : Bool) (rm : Reg) :
    (rd == 15 || rn == 15 || rs == 15 || rm == 15) = !Instr.wellFormed (.smlawy c rd rn rs y rm) := by
  simp only [Instr.wellFormed, notPc, bne, Bool.not_and, Bool.not_not]

theorem smulxy_check_eq (c : Cond) (rd rs : Reg) (y x : Bool) (rm : Reg) :
    (rd == 15 || rs == 15 || rm == 15) = !Instr.wellFormed (.smulxy c rd rs y x rm) := by
  simp only [Instr.wellFormed, notPc, bne, Bool.not_and, Bool.not_not]

/-! ### MUL and MLA (R231, R232) -/

theorem multiply_admitted (s : State) (setf : Bool) (rd : Reg) (v : Word) :
    s.multiply false setf rd v = .ok { s.advance.writeReg rd v with
      cpsr := if setf then withNZCV s.cpsr s.flagN (v == 0) false s.flagV else s.cpsr } := by
  rw [State.multiply, faultIf_false, ok_bind]
  exact congrArg Except.ok (mulFlags_of_cpsr (State.writeReg_cpsr s.advance rd v) setf (v == 0))

theorem exec_mul (c : Cond) (setf : Bool) (rd rs rm : Reg) (s : State) :
    exec (.mul c setf rd rs rm) s = armExec c (fun s =>
      s.multiply (rd == 15 || rm == 15 || rs == 15 || rd == rm) setf rd (s.readReg rm * s.readReg rs)) s := rfl

theorem exec_mla (c : Cond) (setf : Bool) (rd rn rs rm : Reg) (s : State) :
    exec (.mla c setf rd rn rs rm) s = armExec c (fun s =>
      s.multiply (rd == 15 || rm == 15 || rs == 15 || rn == 15 || rd == rm) setf rd
        (s.readReg rm * s.readReg rs + s.readReg rn)) s := rfl

/-- Settles O16: both forms are `multiply` of a value modulo 2^32. -/
theorem multiplyResults : Obligations.MultiplyResults := by
  refine ⟨fun c setf rd rs rm s hw hc => ?mul, fun c setf rd rn rs rm s hw hc => ?mla⟩
  case mul => rw [exec_mul, armExec_of_passed hc, mul_check_eq c setf, hw, Bool.not_true, multiply_admitted, finish_ok, mul_eq_ofNat]
  case mla => rw [exec_mla, armExec_of_passed hc, mla_check_eq c setf, hw, Bool.not_true, multiply_admitted, finish_ok, mul_add_eq_ofNat]

/-! ### UMULL, UMLAL, SMULL and SMLAL (R233 to R236) -/

/-- The machine's 64-bit value of each long multiply, from Rm, Rs and the old pair. -/
def longValue (op : LongMulOp) (x y : Word) (old : BitVec 64) : BitVec 64 :=
  match op with
  | .umull => umul x y
  | .umlal => umul x y + old
  | .smull => smul x y
  | .smlal => smul x y + old

/-- The machine's write of a long multiply's result. -/
def longWrite (op : LongMulOp) (s : State) (setf : Bool) (rdHi rdLo rs rm : Reg) (r : BitVec 64) : Result State :=
  match op with
  | .umull | .umlal => s.multiplyLong setf rdHi rdLo rs rm r
  | .smull | .smlal => s.multiplyLongSigned setf rdHi rdLo rs rm r

theorem exec_longMul (op : LongMulOp) (c : Cond) (setf : Bool) (rdHi rdLo rs rm : Reg) (s : State) :
    exec (.longMul op c setf rdHi rdLo rs rm) s = armExec c (fun s =>
      longWrite op s setf rdHi rdLo rs rm (longValue op (s.readReg rm) (s.readReg rs) (s.pair rdHi rdLo))) s := by
  cases op <;> rfl

theorem longValue_pair (op : LongMulOp) (x y : Word) (s : State) (rdHi rdLo : Reg) :
    longValue op x y (s.pair rdHi rdLo) = longOut op x y (s.readReg rdHi) (s.readReg rdLo) := by
  cases op with
  | umull | smull => rfl
  | umlal => rw [longValue, longOut, umul, pair_eq_ofNat, ← BitVec.ofNat_add]
  | smlal => rw [longValue, longOut, smul, pair_eq_ofNat, BitVec.ofInt_add, BitVec.ofInt_natCast]

theorem multiplyLong_admitted (s : State) (setf : Bool) {rdHi rdLo rs rm : Reg} (h : longRegCheck rdHi rdLo rs rm = false)
    (r : BitVec 64) :
    s.multiplyLong setf rdHi rdLo rs rm r = .ok { pairWritten s rdHi rdLo r with
      cpsr := if setf then withNZCV s.cpsr s.flagN (r == 0) false s.flagV else s.cpsr } := by
  rw [State.multiplyLong, h, faultIf_false, ok_bind, advance_writePair]
  exact congrArg Except.ok (mulFlags_of_cpsr (pairWritten_cpsr s rdHi rdLo r) setf (r == 0))

theorem multiplyLongSigned_admitted (s : State) (setf : Bool) {rdHi rdLo rs rm : Reg}
    (h : longRegCheck rdHi rdLo rs rm = false) (r : BitVec 64) :
    s.multiplyLongSigned setf rdHi rdLo rs rm r = .ok { pairWritten s rdHi rdLo r with
      cpsr := if setf then withNZCV s.cpsr (r.getLsbD 63) (r == 0) false s.flagV else s.cpsr } := by
  rw [State.multiplyLongSigned, h, faultIf_false, ok_bind, advance_writePair]
  exact congrArg Except.ok (mulFlagsSigned_of_cpsr (pairWritten_cpsr s rdHi rdLo r) setf (r.getLsbD 63) (r == 0))

theorem longWrite_admitted (op : LongMulOp) (s : State) (setf : Bool) {rdHi rdLo rs rm : Reg}
    (h : longRegCheck rdHi rdLo rs rm = false) (r : BitVec 64) :
    longWrite op s setf rdHi rdLo rs rm r = .ok { pairWritten s rdHi rdLo r with
      cpsr := if setf then withNZCV s.cpsr (longN op r s.flagN) (r == 0) false s.flagV else s.cpsr } := by
  cases op with
  | umull | umlal => exact multiplyLong_admitted s setf h r
  | smull | smlal => exact multiplyLongSigned_admitted s setf h r

/-- Settles O17: each form writes its value, which is the rule's modulo 2^64. -/
theorem longMultiplyResults : Obligations.LongMultiplyResults := by
  intro op c setf rdHi rdLo rs rm s hw hc
  have hregs : longRegCheck rdHi rdLo rs rm = false := by rw [longRegCheck_eq op c setf, hw, Bool.not_true]
  rw [exec_longMul, armExec_of_passed hc, longWrite_admitted op s setf hregs, longValue_pair, finish_ok]

/-! ### UMAAL and SMLALxy (R238, R241) -/

theorem multiplyLongPlain_admitted (s : State) {rdHi rdLo rs rm : Reg} (h : longRegsOk rdHi rdLo rs rm = true) (r : BitVec 64) :
    s.multiplyLongPlain rdHi rdLo rs rm r = .ok (pairWritten s rdHi rdLo r) := by
  rw [State.multiplyLongPlain, longBad_eq, h, Bool.not_true, faultIf_false, ok_bind, advance_writePair]
  rfl

theorem exec_umaal (c : Cond) (rdHi rdLo rs rm : Reg) (s : State) :
    exec (.umaal c rdHi rdLo rs rm) s = armExec c (fun s => s.multiplyLongPlain rdHi rdLo rs rm
      (umul (s.readReg rm) (s.readReg rs) + (s.readReg rdHi).setWidth 64 + (s.readReg rdLo).setWidth 64)) s := rfl

theorem exec_smlalxy (c : Cond) (rdHi rdLo rs : Reg) (y x : Bool) (rm : Reg) (s : State) :
    exec (.smlalxy c rdHi rdLo rs y x rm) s = armExec c (fun s => s.multiplyLongPlain rdHi rdLo rs rm
      (s.pair rdHi rdLo + BitVec.ofInt 64 ((halfOf x (s.readReg rm)).toInt * (halfOf y (s.readReg rs)).toInt))) s := rfl

/-- Settles O18: both forms write the pair alone; UMAAL's sum does not wrap. -/
theorem accumulatePairResults : Obligations.AccumulatePairResults := by
  refine ⟨fun c rdHi rdLo rs rm s hw hc => ⟨_, toNat_umul_add_add _ _ _ _, ?umaal⟩,
    fun c rdHi rdLo rs y x rm s hw hc => ?smlalxy⟩
  case umaal => rw [exec_umaal, armExec_of_passed hc, multiplyLongPlain_admitted s hw, finish_ok]
  case smlalxy =>
    rw [exec_smlalxy, armExec_of_passed hc, multiplyLongPlain_admitted s hw, finish_ok, pair_eq_ofNat, halfOf_toInt, halfOf_toInt,
      BitVec.ofInt_add, BitVec.ofInt_natCast]

/-! ### SMLAWy and SMULxy (R239, R242) -/

theorem signedOut_iff (i : Int) : signedOut i = true ↔ i < -2 ^ 31 ∨ 2 ^ 31 ≤ i := by
  simp only [signedOut, Bool.or_eq_true, decide_eq_true_eq]

theorem multiplyWide_admitted (s : State) (y : Bool) {rd rn rs rm : Reg}
    (h : (rd == 15 || rn == 15 || rs == 15 || rm == 15) = false) :
    let e : Int := ((s.readReg rm).toInt * halfInt y (s.readReg rs)) / 65536 + (s.readReg rn).toInt
    s.multiplyWide y rd rn rs rm = .ok { s.advance.writeReg rd (BitVec.ofInt 32 e) with
      cpsr := if signedOut e then s.cpsr ||| 0x08000000#32 else s.cpsr } := by
  simp only [signedOut_iff]
  rw [State.multiplyWide, h, faultIf_false, ok_bind, halfOf_toInt]
  exact congrArg Except.ok (stickyQ_of_cpsr (State.writeReg_cpsr s.advance rd _) _)

theorem multiplyHalf_admitted (s : State) (y x : Bool) {rd rs rm : Reg} (h : (rd == 15 || rs == 15 || rm == 15) = false) :
    s.multiplyHalf y x rd rs rm = .ok (s.advance.writeReg rd
      (BitVec.ofInt 32 (halfInt x (s.readReg rm) * halfInt y (s.readReg rs)))) := by
  rw [State.multiplyHalf, h, faultIf_false, ok_bind, halfOf_toInt, halfOf_toInt]
  rfl

theorem exec_smlawy (c : Cond) (rd rn rs : Reg) (y : Bool) (rm : Reg) (s : State) :
    exec (.smlawy c rd rn rs y rm) s = armExec c (fun s => s.multiplyWide y rd rn rs rm) s := rfl

theorem exec_smulxy (c : Cond) (rd rs : Reg) (y x : Bool) (rm : Reg) (s : State) :
    exec (.smulxy c rd rs y x rm) s = armExec c (fun s => s.multiplyHalf y x rd rs rm) s := rfl

/-- Settles O19: SMLAWy by its sum, SMULxy by a product that does not wrap. -/
theorem halfwordMultiplyResults : Obligations.HalfwordMultiplyResults := by
  refine ⟨fun c rd rn rs y rm s hw hc => ?smlawy,
    fun c rd rs y x rm s hw hc => ⟨_, toInt_ofInt_halfInt_mul _ _ _ _, ?smulxy⟩⟩
  case smlawy =>
    have hregs := (smlawy_check_eq c rd rn rs y rm).trans (by rw [hw, Bool.not_true])
    rw [exec_smlawy, armExec_of_passed hc, multiplyWide_admitted s y hregs, finish_ok]
  case smulxy =>
    have hregs := (smulxy_check_eq c rd rs y x rm).trans (by rw [hw, Bool.not_true])
    rw [exec_smulxy, armExec_of_passed hc, multiplyHalf_admitted s y x hregs, finish_ok]

/-! ### The encodings that stop (R237, R240; 48_thumb_data_ops.md R352) -/

theorem exec_smlaxy (c : Cond) (rd rn rs : Reg) (y x : Bool) (rm : Reg) (s : State) :
    exec (.smlaxy c rd rn rs y x rm) s = armExec c (fun _ => refusedEncoding .smlaxy) s := rfl

theorem exec_smulwy (c : Cond) (rd rn rs : Reg) (y : Bool) (rm : Reg) (s : State) :
    exec (.smulwy c rd rn rs y rm) s = armExec c (fun _ => refusedEncoding .smulwy) s := rfl

theorem finish_refusedEncoding (what : Refused) : finish (refusedEncoding what) = .fault (.unmodelled what) := rfl

theorem exec_bxH1T (h2 : Bool) (rs : LowReg) (s : State) : exec (.bxH1T h2 rs) s = .fault (.unpredictable .thumbBxH1) := rfl

/-- Settles O20: the two ARM rows refuse behind their condition, the Thumb row has none; the words decode by the table. -/
theorem refusedFormsStop : Obligations.RefusedFormsStop := by
  refine ⟨fun c rd rn rs y x rm s hc => ?smlaxy, fun c rd rn rs y rm s hc => ?smulwy, exec_bxH1T, by decide, by decide, by decide⟩
  case smlaxy => rw [exec_smlaxy, armExec_of_passed hc, finish_refusedEncoding]
  case smulwy => rw [exec_smulwy, armExec_of_passed hc, finish_refusedEncoding]

end Sys2Proof.Claims
end

section
/-! MRS and MSR (44_arm_psr_transfer.md R250 to R252): the field mask bit by bit, what each shared meaning answers once its operand is
known, and the three statements about the six forms. -/
namespace Sys2Proof.Claims
open Sys2Proof Sys2Proof.Machine

/-! ### The field mask and the merge, bit by bit (R252) -/

theorem ite_zero_getLsbD (b : Bool) (m : Word) (i : Nat) : (if b then m else 0).getLsbD i = (b && m.getLsbD i) := by
  cases b <;> simp

/-- The constants of `maskBytes` are the four bytes of a word. -/
theorem byteMasks_getLsbD : ∀ i < 32,
    (0xFF000000#32).getLsbD i = (i / 8 == 3) ∧ (0x00FF0000#32).getLsbD i = (i / 8 == 2) ∧
    (0x0000FF00#32).getLsbD i = (i / 8 == 1) ∧ (0x000000FF#32).getLsbD i = (i / 8 == 0) := by decide

theorem maskBytes_getLsbD (mask : BitVec 4) {i : Nat} (hi : i < 32) : (maskBytes mask).getLsbD i = mask.getLsbD (i / 8) := by
  obtain ⟨h3, h2, h1, h0⟩ := byteMasks_getLsbD i hi
  simp only [maskBytes, BitVec.getLsbD_or, ite_zero_getLsbD, h3, h2, h1, h0]
  have hbyte : i / 8 = 0 ∨ i / 8 = 1 ∨ i / 8 = 2 ∨ i / 8 = 3 := by omega
  rcases hbyte with h | h | h | h <;> simp [h]

theorem cpsrMask_getLsbD (s : State) (mask : BitVec 4) {i : Nat} (hi : i < 32) :
    (s.cpsrMask mask).getLsbD i = (mask.getLsbD (i / 8) && (!s.isUser || i / 8 == 3)) := by
  rw [State.cpsrMask]
  cases s.isUser with
  | true =>
    simp only [if_true, BitVec.getLsbD_and, maskBytes_getLsbD mask hi, (byteMasks_getLsbD i hi).1, Bool.not_true, Bool.false_or]
  | false => simp only [Bool.false_eq_true, if_false, maskBytes_getLsbD mask hi, Bool.not_false, Bool.true_or, Bool.and_true]

theorem merge_getLsbD (old new m : Word) {i : Nat} (hi : i < 32) :
    (merge old new m).getLsbD i = if m.getLsbD i then new.getLsbD i else old.getLsbD i := by
  simp only [merge, BitVec.getLsbD_or, BitVec.getLsbD_and, BitVec.getLsbD_not, hi, decide_true, Bool.true_and]
  cases m.getLsbD i <;> simp

/-- A word that takes its bits from `v` where `p` holds, and from `old` elsewhere, is the merge under any mask with the bits `p`. -/
theorem eq_merge_of_bits {n old v m : Word} {p : Nat → Bool} (hm : ∀ i, i < 32 → m.getLsbD i = p i)
    (hn : ∀ i, i < 32 → n.getLsbD i = if p i then v.getLsbD i else old.getLsbD i) : n = merge old v m :=
  BitVec.eq_of_getLsbD_eq fun i hi => by rw [hn i hi, merge_getLsbD _ _ _ hi, hm i hi]

/-! ### The shared meanings -/

theorem readStatus_pc (s : State) (read : Result Word) : s.readStatus 15 read = .error (.unpredictable .mrsPc) := rfl

theorem readStatus_of_ne_pc (s : State) {rd : Reg} (h : rd ≠ 15) (read : Result Word) :
    s.readStatus rd read = read >>= fun v => .ok (s.advance.writeReg rd v) := by
  rw [State.readStatus, beq_eq_false_iff_ne.mpr h]
  rfl

theorem msrReg_of_ne_pc (s : State) {rm : Reg} (h : rm ≠ 15) : s.msrReg rm = .ok (s.readReg rm) := by
  rw [State.msrReg, beq_eq_false_iff_ne.mpr h]
  rfl

theorem msrImm_eq (s : State) (rot : BitVec 4) (imm8 : BitVec 8) : s.msrImm rot imm8 = .ok (immOperand rot imm8 s.flagC).1 := rfl

/-- `WriteCPSR` answers by its mode check (10_state.md R35). -/
theorem finish_writeCpsr (s : State) (v : Word) :
    finish (s.writeCpsr v) =
      if (modeOf (get v 0 5)).isSome then .next { s with cpsr := v } else .fault (.illegalMode (get v 0 5)) := by
  split
  next h => rw [writeCpsr_of_legal s h, finish_ok]
  next h => rw [writeCpsr_of_illegal s (Option.not_isSome_iff_eq_none.mp h), finish_error]

theorem msrCpsr_ok_operand (s : State) (mask : BitVec 4) (v : Word) :
    s.msrCpsr mask (.ok v) = s.advance.writeCpsr (merge s.cpsr v (s.cpsrMask mask)) := rfl

theorem writeSpsr_of_some {s : State} {k : Fin 5} (h : s.spsr? = some k) (v : Word) :
    s.writeSpsr v = .ok { s with spsr := s.spsr.set k v k.isLt } := by
  simp only [State.writeSpsr, h]

theorem advance_spsr? (s : State) : s.advance.spsr? = s.spsr? := rfl

theorem msrSpsr_of_some {s : State} {k : Fin 5} (h : s.spsr? = some k) (mask : BitVec 4) (v : Word) :
    s.msrSpsr mask (.ok v) = .ok { s.advance with spsr := s.spsr.set k (merge s.spsr[k] v (maskBytes mask)) k.isLt } := by
  rw [State.msrSpsr, ok_bind, readSpsr_of_some h, ok_bind, writeSpsr_of_some ((advance_spsr? s).trans h), State.advance_spsr]

theorem msrSpsr_of_none {s : State} (h : s.spsr? = none) (mask : BitVec 4) (v : Word) : s.msrSpsr mask (.ok v) = .error .noSpsr := by
  rw [State.msrSpsr, ok_bind, readSpsr_of_none h, error_bind]

/-! ### The six forms, by one meaning each -/

theorem exec_mrsCpsr (c : Cond) (rd : Reg) (s : State) :
    exec (.mrsCpsr c rd) s = armExec c (fun s => s.readStatus rd (.ok s.cpsr)) s := rfl

theorem exec_mrsSpsr (c : Cond) (rd : Reg) (s : State) :
    exec (.mrsSpsr c rd) s = armExec c (fun s => s.readStatus rd s.readSpsr) s := rfl

theorem exec_msrRegCpsr (c : Cond) (mask : BitVec 4) (rm : Reg) (s : State) :
    exec (.msrRegCpsr c mask rm) s = armExec c (fun s => s.msrCpsr mask (s.msrReg rm)) s := rfl

theorem exec_msrRegSpsr (c : Cond) (mask : BitVec 4) (rm : Reg) (s : State) :
    exec (.msrRegSpsr c mask rm) s = armExec c (fun s => s.msrSpsr mask (s.msrReg rm)) s := rfl

theorem exec_msrImmCpsr (c : Cond) (mask rot : BitVec 4) (imm8 : BitVec 8) (s : State) :
    exec (.msrImmCpsr c mask rot imm8) s = armExec c (fun s => s.msrCpsr mask (s.msrImm rot imm8)) s := rfl

theorem exec_msrImmSpsr (c : Cond) (mask rot : BitVec 4) (imm8 : BitVec 8) (s : State) :
    exec (.msrImmSpsr c mask rot imm8) s = armExec c (fun s => s.msrSpsr mask (s.msrImm rot imm8)) s := rfl

/-! ### The statements -/

/-- Settles O21: the check of Rd comes first, then the read of the status register named. -/
theorem mrsReadsStatus : Obligations.MrsReadsStatus := by
  intro c rd s hc
  rw [exec_mrsCpsr, exec_mrsSpsr, armExec_of_passed hc, armExec_of_passed hc]
  refine ⟨fun hrd => ?cpsr, fun k hrd hk => ?spsr, fun hrd hk => ?noSpsr, fun hrd => ?pc⟩
  case cpsr => rw [readStatus_of_ne_pc s hrd, ok_bind, finish_ok]
  case spsr => rw [readStatus_of_ne_pc s hrd, readSpsr_of_some hk, ok_bind, finish_ok]
  case noSpsr => rw [readStatus_of_ne_pc s hrd, readSpsr_of_none hk, error_bind, finish_error]
  case pc => subst hrd; exact ⟨by rw [readStatus_pc, finish_error], by rw [readStatus_pc, finish_error]⟩

/-- Settles O22: the bits given are those of the merge that MSR writes, and `WriteCPSR` checks its mode. -/
theorem msrWritesCpsr : Obligations.MsrWritesCpsr := by
  intro c mask s v n hc hn out
  have hmerge : n = merge s.cpsr v (s.cpsrMask mask) := eq_merge_of_bits (fun i hi => cpsrMask_getLsbD s mask hi) hn
  have hout : finish (s.msrCpsr mask (.ok v)) = out := by
    rw [msrCpsr_ok_operand, ← hmerge]
    exact finish_writeCpsr s.advance n
  refine ⟨fun rm hrm hv => ?reg, fun rot imm8 hv => ?imm⟩
  case reg => rw [exec_msrRegCpsr, armExec_of_passed hc, msrReg_of_ne_pc s hrm, ← hv, hout]
  case imm => rw [exec_msrImmCpsr, armExec_of_passed hc, msrImm_eq, ← hv, hout]

/-- Settles O23: the bits given are those of the merge into the current mode's SPSR; without one, its read faults. -/
theorem msrWritesSpsr : Obligations.MsrWritesSpsr := by
  intro c mask s v hc
  refine ⟨fun k n hk hn => ?some, fun hk rm rot imm8 hrm => ?none⟩
  case some =>
    have hmerge : n = merge s.spsr[k] v (maskBytes mask) := eq_merge_of_bits (fun i hi => maskBytes_getLsbD mask hi) hn
    have hout : finish (s.msrSpsr mask (.ok v)) = .next { s.advance with spsr := s.spsr.set k n k.isLt } := by
      rw [msrSpsr_of_some hk, finish_ok, ← hmerge]
    refine ⟨fun rm hrm hv => ?reg, fun rot imm8 hv => ?imm⟩
    case reg => rw [exec_msrRegSpsr, armExec_of_passed hc, msrReg_of_ne_pc s hrm, ← hv, hout]
    case imm => rw [exec_msrImmSpsr, armExec_of_passed hc, msrImm_eq, ← hv, hout]
  case none =>
    have hout (w : Word) : finish (s.msrSpsr mask (.ok w)) = .fault .noSpsr := by rw [msrSpsr_of_none hk, finish_error]
    constructor
    · rw [exec_msrRegSpsr, armExec_of_passed hc, msrReg_of_ne_pc s hrm, hout]
    · rw [exec_msrImmSpsr, armExec_of_passed hc, msrImm_eq, hout]

end Sys2Proof.Claims
end

section
/-! Single data transfers, halfword transfers and swap (45_arm_load_store.md R260 to R276): which forms are admitted, the address they
have then, and what each shared meaning answers for its data accesses, at every address and at an aligned one in internal memory. -/
namespace Sys2Proof.Claims
open Sys2Proof Sys2Proof.Machine

/-! ### Aligned accesses in internal memory (20_memory.md R62 to R64, R80) -/

theorem dataRead_aligned_inside {s : State} {k : LoadKind} {a : Word} (h : a.toNat + widthBytes (loadWidth k) ≤ s.cfg.memSize)
    (ha : a.toNat % widthBytes (loadWidth k) = 0) :
    s.dataRead k a = .ok (extended k (valueAt s (loadWidth k) a.toNat), s) := by
  rw [dataRead_exact (.inl ha), memRead_inside h]
  rfl

theorem dataWrite_aligned_inside {s : State} {w : Width} {a : Word} (h : a.toNat + widthBytes w ≤ s.cfg.memSize)
    (ha : a.toNat % widthBytes w = 0) (v : Word) :
    s.dataWrite w a v = .ok { s with mem := Memory.writeBytes s.mem a.toNat (widthBytesOf s w v) } := by
  rw [dataWrite_exact v (.inl ha), memWrite_inside h]

theorem extended_valueAt_byte (s : State) (b : Nat) : extended .byte (valueAt s .byte b) = (byteAt s b).setWidth 32 := by
  simp only [extended, valueAt, extractLsb'_setWidth_low _ (show 8 ≤ 32 by decide)]

theorem loadWidth_halfLoadKind (k : HalfLoad) : loadWidth (halfLoadKind k) = halfLoadWidth k := by cases k <;> rfl

theorem extended_valueAt_halfLoad (s : State) (k : HalfLoad) (b : Nat) :
    extended (halfLoadKind k) (valueAt s (loadWidth (halfLoadKind k)) b) = halfLoadValue s k b := by
  cases k with
  | ldrh => exact extended_valueAt_half s b
  | ldrsb => exact extended_valueAt_signedByte s b
  | ldrsh => exact extended_valueAt_signedHalf s b

/-! ### The admitted forms (R260, R266) -/

/-- With a writeback the base is neither R15 nor Rd. -/
def baseOk (back : Bool) (rn rd : Reg) : Bool := !back || (notPc rn && rn != rd)

def sdtOffsetOk : SdtOffset → Bool
  | .imm _ => true
  | .reg _ _ rm => notPc rm

def halfOffsetOk : HalfOffset → Bool
  | .imm _ _ => true
  | .reg rm => notPc rm

theorem beq_pc_of_notPc {r : Reg} (h : notPc r = true) : (r == 15) = false := beq_false_of_ne (bne_iff_ne.mp h)

theorem wellFormed_ldr (x : SdtIndex) (c : Cond) (u : Bool) (rn rd : Reg) (o : SdtOffset) :
    Instr.wellFormed (.ldr x c u rn rd o) = (sdtOffsetOk o && baseOk (sdtBack x) rn rd) := by
  cases o with
  | imm n => cases x <;> rfl
  | reg n t rm =>
    cases x with
    | pre w => rfl
    | post | t => exact Bool.and_assoc _ _ _

theorem wellFormed_str (x : SdtIndex) (c : Cond) (u : Bool) (rn rd : Reg) (o : SdtOffset) :
    Instr.wellFormed (.str x c u rn rd o) = Instr.wellFormed (.ldr x c u rn rd o) := by
  cases x <;> cases o <;> rfl

theorem wellFormed_ldrb (x : SdtIndex) (c : Cond) (u : Bool) (rn rd : Reg) (o : SdtOffset) :
    Instr.wellFormed (.ldrb x c u rn rd o) = (notPc rd && Instr.wellFormed (.ldr x c u rn rd o)) := by
  cases x <;> cases o <;> simp only [Instr.ldrb, Instr.ldr, Instr.wellFormed, Bool.and_assoc]

theorem wellFormed_strb (x : SdtIndex) (c : Cond) (u : Bool) (rn rd : Reg) (o : SdtOffset) :
    Instr.wellFormed (.strb x c u rn rd o) = Instr.wellFormed (.ldrb x c u rn rd o) := by
  cases x <;> cases o <;> rfl

theorem wellFormed_strh (c : Cond) (p u w : Bool) (rn rd : Reg) (o : HalfOffset) :
    Instr.wellFormed (.strh c p u w rn rd o) = (notPc rd && (halfOffsetOk o && halfIndexOk p w rn rd)) := by
  cases o with
  | imm hi lo => rfl
  | reg rm => exact Bool.and_assoc _ _ _

theorem wellFormed_halfLoad (k : HalfLoad) (c : Cond) (p u w : Bool) (rn rd : Reg) (o : HalfOffset) :
    Instr.wellFormed (.halfLoad k c p u w rn rd o) = Instr.wellFormed (.strh c p u w rn rd o) := by
  cases k <;> cases o <;> rfl

theorem swap_check_eq (c : Cond) (rn rd rm : Reg) :
    (rd == 15 || rm == 15 || rn == 15 || rn == rd || rn == rm) = !Instr.wellFormed (.swp c rn rd rm) := by
  simp only [Instr.wellFormed, notPc, bne, Bool.not_and, Bool.not_not]

/-! ### The address of an admitted form (R260, R266) -/

/-- The value written back, where the form writes the base back. -/
def backValue (back : Bool) (v : Word) : Option Word := if back then some v else none

theorem baseOk_checks {back : Bool} {rn rd : Reg} (h : baseOk back rn rd = true) :
    (back && rn == 15) = false ∧ (back && rn == rd) = false := by
  cases back with
  | false => exact ⟨rfl, rfl⟩
  | true =>
    obtain ⟨hpc, hrd⟩ := Bool.and_eq_true_iff.mp h
    exact ⟨beq_pc_of_notPc hpc, beq_false_of_ne (bne_iff_ne.mp hrd)⟩

theorem sdtAddress_admitted (s : State) (off : Word) (p u w : Bool) {rn rd : Reg} (h : baseOk (!p || w) rn rd = true) :
    s.sdtAddress (.ok off) p u w rn rd =
      .ok (if p then moved s u rn off else s.readReg rn, backValue (!p || w) (moved s u rn off)) := by
  obtain ⟨hpc, hrd⟩ := baseOk_checks h
  simp only [State.sdtAddress, ok_bind, hpc, hrd, faultIf_false]
  rfl

theorem hdtAddress_admitted (s : State) (off : Word) (p u w : Bool) {rn rd : Reg} (h : halfIndexOk p w rn rd = true) :
    s.hdtAddress (.ok off) p u w rn rd =
      .ok (if p then moved s u rn off else s.readReg rn, backValue (!p || w) (moved s u rn off)) := by
  obtain ⟨hpw, hbase⟩ := Bool.and_eq_true_iff.mp h
  obtain ⟨hpc, hrd⟩ := baseOk_checks (back := !p || w) hbase
  simp only [State.hdtAddress, ok_bind, (Bool.not_eq_true' _).mp hpw, hpc, hrd, faultIf_false]
  rfl

theorem sdtOffsetReg_admitted (s : State) (n : BitVec 5) (t : ShiftType) {rm : Reg} (h : notPc rm = true) :
    s.sdtOffsetReg n t rm = .ok (sdtOffset s (.reg n t rm)) := by
  rw [State.sdtOffsetReg, beq_pc_of_notPc h]
  rfl

theorem hdtOffsetReg_admitted (s : State) {rm : Reg} (h : notPc rm = true) :
    s.hdtOffsetReg rm = .ok (halfOffset s (.reg rm)) := by
  rw [State.hdtOffsetReg, beq_pc_of_notPc h]
  rfl

/-- The two fields side by side are their eight bits in order. -/
theorem hdtOffsetImm_eq (s : State) (hi lo : BitVec 4) : hdtOffsetImm hi lo = .ok (halfOffset s (.imm hi lo)) := by
  refine congrArg Except.ok (BitVec.eq_of_getLsbD_eq fun i hi32 => ?_)
  simp only [halfOffset, BitVec.getLsbD_or, put_getLsbD, BitVec.getLsbD_setWidth, BitVec.getLsbD_append, hi32]
  by_cases hlo : i < 4
  · simp [hlo, Nat.not_le.mpr hlo]
  · simp [hlo, Nat.not_lt.mp hlo]

/-- The W bit of an index form (30_encoding.md R117). -/
def sdtW : SdtIndex → Bool
  | .pre w => w
  | .post => false
  | .t => true

theorem not_sdtPre_or_sdtW (x : SdtIndex) : (!sdtPre x || sdtW x) = sdtBack x := by cases x <;> rfl

theorem sdtResult_admitted (s : State) {x : SdtIndex} (u : Bool) {rn rd : Reg} {o : SdtOffset}
    (ho : sdtOffsetOk o = true) (hb : baseOk (sdtBack x) rn rd = true) :
    sdtResult s x u rn rd o = .ok (sdtAddr s x u rn o, backValue (sdtBack x) (moved s u rn (sdtOffset s o))) := by
  rw [← not_sdtPre_or_sdtW] at hb ⊢
  cases o with
  | imm n => exact sdtAddress_admitted s _ (sdtPre x) u (sdtW x) hb
  | reg n t rm =>
    change s.sdtAddress (s.sdtOffsetReg n t rm) (sdtPre x) u (sdtW x) rn rd = _
    rw [sdtOffsetReg_admitted s n t ho]
    exact sdtAddress_admitted s _ (sdtPre x) u (sdtW x) hb

theorem hdtResult_admitted (s : State) {p w : Bool} (u : Bool) {rn rd : Reg} {o : HalfOffset}
    (ho : halfOffsetOk o = true) (hi : halfIndexOk p w rn rd = true) :
    hdtResult s p u w rn rd o = .ok (halfAddr s p u rn o, backValue (!p || w) (moved s u rn (halfOffset s o))) := by
  cases o with
  | imm immHi immLo => rw [hdtResult, hdtOffsetImm_eq s]; exact hdtAddress_admitted s _ p u w hi
  | reg rm => rw [hdtResult, hdtOffsetReg_admitted s ho]; exact hdtAddress_admitted s _ p u w hi

/-! ### What follows the access (R277) -/

theorem writeBack_advance (t : State) (back : Bool) (rn : Reg) (v : Word) :
    t.advance.writeBack rn (backValue back v) = based t back rn v := by
  cases back <;> rfl

/-- A register write and a change of memory do not see each other. -/
theorem writeReg_withMem (s : State) (m : Memory) (r : Reg) (v : Word) :
    { s with mem := m }.writeReg r v = { s.writeReg r v with mem := m } := by
  have hregs : ({ s with mem := m }.writeReg r v).regs = (s.writeReg r v).regs :=
    State.writeReg_regs_congr (s := s) (t := { s with mem := m }) rfl rfl r v
  rw [State.writeReg_eq { s with mem := m }, hregs, State.writeReg_eq s]

theorem based_withMem (s : State) (m : Memory) (back : Bool) (rn : Reg) (v : Word) :
    based { s with mem := m } back rn v = { based s back rn v with mem := m } := by
  cases back with
  | false => rfl
  | true => exact writeReg_withMem s.advance m rn v

theorem finish_writePcArm (t : State) (v : Word) : finish (t.writePcArm v) = branched t v := by
  rw [writePcArm_eq, branched, apply_ite finish, finish_ok, finish_error]

theorem pcStored_eq (s : State) : s.pcStored = pcToStore s := by
  unfold State.pcStored pcToStore
  cases s.cfg.storedPc <;> rfl

theorem finish_loadWord (s : State) (a m : Word) (back : Bool) (rn rd : Reg) :
    finish (s.loadWord (.ok (a, backValue back m)) rn rd) =
      after (s.dataRead .word a) fun x =>
        if rd = 15 then branched (based x.2 back rn m) x.1 else .next ((based x.2 back rn m).writeReg rd x.1) := by
  simp only [State.loadWord, ok_bind, dataRead_advance]
  cases s.dataRead .word a with
  | error f => rfl
  | ok x =>
    simp only [Except.map, ok_bind, writeBack_advance, after, apply_ite finish, finish_writePcArm]
    rfl

theorem finish_storeWord (s : State) (a m : Word) (back : Bool) (rn rd : Reg) :
    finish (s.storeWord (.ok (a, backValue back m)) rn rd) =
      after (s.dataWrite .word a (if rd = 15 then pcToStore s else s.readReg rd)) fun t => .next (based t back rn m) := by
  simp only [State.storeWord, ok_bind, dataWrite_advance, pcStored_eq]
  generalize s.dataWrite .word a _ = written
  cases written with
  | error f => rfl
  | ok t => exact congrArg Host.Outcome.next (writeBack_advance t back rn m)

theorem finish_loadNarrow (s : State) (tag : Tag) (k : LoadKind) (a m : Word) (back : Bool) (rn : Reg) {rd : Reg}
    (hrd : notPc rd = true) :
    finish (s.loadNarrow tag k (.ok (a, backValue back m)) rn rd) =
      after (s.dataRead k a) fun x => .next ((based x.2 back rn m).writeReg rd x.1) := by
  simp only [State.loadNarrow, beq_pc_of_notPc hrd, faultIf_false, ok_bind, dataRead_advance]
  cases s.dataRead k a with
  | error f => rfl
  | ok x => exact congrArg (fun t : State => Host.Outcome.next (t.writeReg rd x.1)) (writeBack_advance x.2 back rn m)

theorem finish_storeNarrow (s : State) (tag : Tag) (w : Width) (a m : Word) (back : Bool) (rn : Reg) {rd : Reg}
    (hrd : notPc rd = true) :
    finish (s.storeNarrow tag w (.ok (a, backValue back m)) rn rd) =
      after (s.dataWrite w a (truncate w (s.readReg rd))) fun t => .next (based t back rn m) := by
  simp only [State.storeNarrow, beq_pc_of_notPc hrd, faultIf_false, ok_bind, dataWrite_advance]
  cases s.dataWrite w a (truncate w (s.readReg rd)) with
  | error f => rfl
  | ok t => exact congrArg Host.Outcome.next (writeBack_advance t back rn m)

/-- The store of a swap comes in the state that its load left. -/
theorem finish_swap (s : State) (k : LoadKind) {rn rd rm : Reg}
    (h : (rd == 15 || rm == 15 || rn == 15 || rn == rd || rn == rm) = false) :
    finish (s.swap k rn rd rm) =
      after (s.dataRead k (s.readReg rn)) fun x =>
        after (x.2.dataWrite (loadWidth k) (s.readReg rn) (truncate (loadWidth k) (s.readReg rm))) fun q =>
          .next (q.advance.writeReg rd x.1) := by
  simp only [State.swap, h, faultIf_false, ok_bind, dataRead_advance]
  cases s.dataRead k (s.readReg rn) with
  | error f => rfl
  | ok x =>
    simp only [Except.map, ok_bind, after, dataWrite_advance]
    cases x.2.dataWrite (loadWidth k) (s.readReg rn) (truncate (loadWidth k) (s.readReg rm)) <;> rfl

/-! ### A store and a swap in internal memory -/

/-- What follows an aligned store of a register's low part: the writeback keeps the bytes, and truncation has kept them. -/
theorem after_dataWrite_inside {s : State} {w : Width} {a : Word} (h : a.toNat + widthBytes w ≤ s.cfg.memSize)
    (ha : a.toNat % widthBytes w = 0) (v m : Word) (back : Bool) (rn : Reg) :
    (after (s.dataWrite w a (truncate w v)) fun t => .next (based t back rn m)) =
      .next { based s back rn m with mem := Memory.writeBytes s.mem a.toNat (widthBytesOf s w v) } := by
  rw [dataWrite_aligned_inside h ha, widthBytesOf_truncate, after, based_withMem]

/-- In internal memory the load of a swap leaves the state alone, so its store is one in the state before. -/
theorem finish_swap_inside (s : State) (k : LoadKind) {rn rd rm : Reg}
    (h : (rd == 15 || rm == 15 || rn == 15 || rn == rd || rn == rm) = false)
    (hin : (s.readReg rn).toNat + widthBytes (loadWidth k) ≤ s.cfg.memSize)
    (ha : (s.readReg rn).toNat % widthBytes (loadWidth k) = 0) :
    finish (s.swap k rn rd rm) =
      .next { s.advance.writeReg rd (extended k (valueAt s (loadWidth k) (s.readReg rn).toNat)) with
        mem := Memory.writeBytes s.mem (s.readReg rn).toNat (widthBytesOf s (loadWidth k) (s.readReg rm)) } := by
  rw [finish_swap s k h, dataRead_aligned_inside hin ha, after, dataWrite_aligned_inside hin ha, after, widthBytesOf_truncate]
  exact congrArg Host.Outcome.next (writeReg_withMem s.advance _ rd _)

/-! ### The families, each by its one meaning -/

theorem exec_ldr (x : SdtIndex) (c : Cond) (u : Bool) (rn rd : Reg) (o : SdtOffset) (s : State) :
    exec (.ldr x c u rn rd o) s = armExec c (fun s => s.loadWord (sdtResult s x u rn rd o) rn rd) s := by
  cases x <;> cases o <;> rfl

theorem exec_ldrb (x : SdtIndex) (c : Cond) (u : Bool) (rn rd : Reg) (o : SdtOffset) (s : State) :
    exec (.ldrb x c u rn rd o) s = armExec c (fun s => s.loadNarrow .ldrbPc .byte (sdtResult s x u rn rd o) rn rd) s := by
  cases x <;> cases o <;> rfl

theorem exec_halfLoad (k : HalfLoad) (c : Cond) (p u w : Bool) (rn rd : Reg) (o : HalfOffset) (s : State) :
    exec (.halfLoad k c p u w rn rd o) s =
      armExec c (fun s => s.loadNarrow .hdtLoadPc (halfLoadKind k) (hdtResult s p u w rn rd o) rn rd) s := by
  cases k <;> cases o <;> rfl

/-! ### An admitted form at every address -/

section Word
variable {x : SdtIndex} {c : Cond} {u : Bool} {rn rd : Reg} {o : SdtOffset} {s : State}
  (hw : Instr.wellFormed (.ldr x c u rn rd o) = true) (hc : s.condPassed c = true)
include hw

theorem sdtResult_of_wellFormed :
    sdtResult s x u rn rd o = .ok (sdtAddr s x u rn o, backValue (sdtBack x) (moved s u rn (sdtOffset s o))) := by
  obtain ⟨ho, hb⟩ := Bool.and_eq_true_iff.mp (wellFormed_ldr x c u rn rd o ▸ hw)
  exact sdtResult_admitted s u ho hb

include hc

theorem exec_ldr_admitted :
    exec (.ldr x c u rn rd o) s = after (s.dataRead .word (sdtAddr s x u rn o)) fun y =>
      if rd = 15 then branched (based y.2 (sdtBack x) rn (moved s u rn (sdtOffset s o))) y.1
      else .next ((based y.2 (sdtBack x) rn (moved s u rn (sdtOffset s o))).writeReg rd y.1) := by
  rw [exec_ldr, armExec_of_passed hc, sdtResult_of_wellFormed hw, finish_loadWord]

theorem exec_str_admitted :
    exec (.str x c u rn rd o) s =
      after (s.dataWrite .word (sdtAddr s x u rn o) (if rd = 15 then pcToStore s else s.readReg rd)) fun t =>
        .next (based t (sdtBack x) rn (moved s u rn (sdtOffset s o))) := by
  rw [exec_str, armExec_of_passed hc, sdtResult_of_wellFormed hw, finish_storeWord]

end Word

section Byte
variable {x : SdtIndex} {c : Cond} {u : Bool} {rn rd : Reg} {o : SdtOffset} {s : State}
  (hw : Instr.wellFormed (.ldrb x c u rn rd o) = true) (hc : s.condPassed c = true)
include hw hc

theorem exec_ldrb_admitted :
    exec (.ldrb x c u rn rd o) s = after (s.dataRead .byte (sdtAddr s x u rn o)) fun y =>
      .next ((based y.2 (sdtBack x) rn (moved s u rn (sdtOffset s o))).writeReg rd y.1) := by
  obtain ⟨hrd, hldr⟩ := Bool.and_eq_true_iff.mp (wellFormed_ldrb x c u rn rd o ▸ hw)
  rw [exec_ldrb, armExec_of_passed hc, sdtResult_of_wellFormed hldr, finish_loadNarrow (hrd := hrd)]

theorem exec_strb_admitted :
    exec (.strb x c u rn rd o) s = after (s.dataWrite .byte (sdtAddr s x u rn o) (truncate .byte (s.readReg rd))) fun t =>
      .next (based t (sdtBack x) rn (moved s u rn (sdtOffset s o))) := by
  obtain ⟨hrd, hldr⟩ := Bool.and_eq_true_iff.mp (wellFormed_ldrb x c u rn rd o ▸ hw)
  rw [exec_strb, armExec_of_passed hc, sdtResult_of_wellFormed hldr, finish_storeNarrow (hrd := hrd)]

end Byte

section Half
variable {c : Cond} {p u w : Bool} {rn rd : Reg} {o : HalfOffset} {s : State}
  (hw : Instr.wellFormed (.strh c p u w rn rd o) = true) (hc : s.condPassed c = true)
include hw

theorem hdtResult_of_wellFormed :
    hdtResult s p u w rn rd o = .ok (halfAddr s p u rn o, backValue (!p || w) (moved s u rn (halfOffset s o))) := by
  obtain ⟨_, hform⟩ := Bool.and_eq_true_iff.mp (wellFormed_strh c p u w rn rd o ▸ hw)
  obtain ⟨ho, hi⟩ := Bool.and_eq_true_iff.mp hform
  exact hdtResult_admitted s u ho hi

theorem notPc_of_wellFormed_strh : notPc rd = true := (Bool.and_eq_true_iff.mp (wellFormed_strh c p u w rn rd o ▸ hw)).1

include hc

theorem exec_halfLoad_admitted (k : HalfLoad) :
    exec (.halfLoad k c p u w rn rd o) s = after (s.dataRead (halfLoadKind k) (halfAddr s p u rn o)) fun y =>
      .next ((based y.2 (!p || w) rn (moved s u rn (halfOffset s o))).writeReg rd y.1) := by
  rw [exec_halfLoad, armExec_of_passed hc, hdtResult_of_wellFormed hw,
    finish_loadNarrow (hrd := notPc_of_wellFormed_strh hw)]

theorem exec_strh_admitted :
    exec (.strh c p u w rn rd o) s = after (s.dataWrite .half (halfAddr s p u rn o) (truncate .half (s.readReg rd))) fun t =>
      .next (based t (!p || w) rn (moved s u rn (halfOffset s o))) := by
  rw [exec_strh, armExec_of_passed hc, hdtResult_of_wellFormed hw,
    finish_storeNarrow (hrd := notPc_of_wellFormed_strh hw)]

end Half

/-! ### The statements -/

/-- Settles O24: in internal memory the read answers the word and leaves the state alone. -/
theorem ldrLoadsWord : Obligations.LdrLoadsWord := by
  intro x c u rn rd o s hw hc
  refine ⟨exec_ldr_admitted hw hc, fun hin ha => ?inside⟩
  rw [exec_ldr_admitted hw hc, dataRead_aligned_inside (k := .word) hin.1 ha]
  exact ⟨fun hrd => if_neg hrd, fun hrd => if_pos hrd⟩

/-- Settles O25: in internal memory the read answers the value extended, and a byte is never misaligned. -/
theorem narrowLoadsExtend : Obligations.NarrowLoadsExtend := by
  constructor
  case left =>
    intro x c u rn rd o s hw hc
    refine ⟨exec_ldrb_admitted hw hc, fun hin => ?byte⟩
    rw [exec_ldrb_admitted hw hc, dataRead_aligned_inside (k := .byte) hin.1 (Nat.mod_one _), ← extended_valueAt_byte]
    rfl
  case right =>
    intro k c p u w rn rd o s hw hc
    rw [wellFormed_halfLoad] at hw
    refine ⟨exec_halfLoad_admitted hw hc k, fun hin ha => ?half⟩
    rw [← loadWidth_halfLoadKind] at hin ha
    rw [exec_halfLoad_admitted hw hc, dataRead_aligned_inside hin.1 ha, extended_valueAt_halfLoad]
    rfl

/-- Settles O26: in internal memory the write leaves the bytes of the word, which the writeback keeps. -/
theorem strStoresWord : Obligations.StrStoresWord := by
  intro x c u rn rd o s hw hc
  rw [wellFormed_str] at hw
  refine ⟨exec_str_admitted hw hc, fun hin ha => ?inside⟩
  rw [exec_str_admitted hw hc]
  exact after_dataWrite_inside (w := .word) hin.1 ha _ _ _ rn

/-- Settles O27: in internal memory the write leaves the low bytes, and a byte is never misaligned. -/
theorem narrowStoresTruncate : Obligations.NarrowStoresTruncate := by
  constructor
  case left =>
    intro x c u rn rd o s hw hc
    rw [wellFormed_strb] at hw
    refine ⟨exec_strb_admitted hw hc, fun hin => ?byte⟩
    rw [exec_strb_admitted hw hc]
    exact after_dataWrite_inside (w := .byte) hin.1 (Nat.mod_one _) _ _ _ rn
  case right =>
    intro c p u w rn rd o s hw hc
    refine ⟨exec_strh_admitted hw hc, fun hin ha => ?half⟩
    rw [exec_strh_admitted hw hc]
    exact after_dataWrite_inside (w := .half) hin.1 ha _ _ _ rn

/-- Settles O28: both forms are `swap` of a width; the value stored is read from Rm before the load. -/
theorem swapExchanges : Obligations.SwapExchanges := by
  intro c rn rd rm s hw hc
  have hregs := (swap_check_eq c rn rd rm).trans (by rw [hw, Bool.not_true])
  rw [exec_swp, exec_swpb, armExec_of_passed hc, armExec_of_passed hc]
  refine ⟨finish_swap s .word hregs, finish_swap s .byte hregs, fun hin ha => ?word, fun hin => ?byte⟩
  case word => exact finish_swap_inside s .word hregs hin.1 ha
  case byte =>
    rw [← extended_valueAt_byte]
    exact finish_swap_inside s .byte hregs hin.1 (Nat.mod_one _)

end Sys2Proof.Claims
end

section
/-! Block transfers (46_arm_block_transfer.md R290 to R294): the registers of a list, which forms are admitted, what each shared meaning
answers for its accesses at every address, and the words of an aligned block in internal memory. -/
namespace Sys2Proof.Claims
open Sys2Proof Sys2Proof.Machine

/-! ### Register lists (R290) -/

theorem mem_allRegs (r : Reg) : r ∈ allRegs := by revert r; decide

theorem getElem_allRegs (i : Nat) (h : i < allRegs.length) : allRegs[i] = ⟨i, h⟩ :=
  (by decide : ∀ i : Fin 16, allRegs[i] = i) ⟨i, h⟩

theorem mem_regsOf {n : Nat} (list : BitVec n) (r : Reg) : r ∈ regsOf list ↔ list.getLsbD r.val = true := by
  rw [regsOf, List.mem_filter, and_iff_right (mem_allRegs r)]

theorem nodup_regsOf {n : Nat} (list : BitVec n) : (regsOf list).Nodup := List.Nodup.filter _ (by decide)

theorem regsOf_ne_nil {list : BitVec 16} (h : list ≠ 0) : regsOf list ≠ [] := by
  intro hnil
  refine h (BitVec.eq_of_getLsbD_eq fun i hi => ?_)
  have hi' : (⟨i, hi⟩ : Reg) ∉ regsOf list := hnil ▸ List.not_mem_nil
  rw [mem_regsOf, Bool.not_eq_true] at hi'
  rw [hi', BitVec.ofNat_eq_ofNat, BitVec.getLsbD_zero]

/-- A register of the list with no lower one in it is the first (R291). -/
theorem head?_regsOf {n : Nat} {list : BitVec n} {r : Reg} (hr : list.getLsbD r.val = true) (hlow : list.setWidth r.val = 0) :
    (regsOf list).head? = some r := by
  rw [regsOf, List.head?_filter, List.find?_eq_some_iff_getElem]
  refine ⟨hr, r.val, r.isLt, getElem_allRegs _ _, fun j hj => ?_⟩
  have hbit := congrArg (·.getLsbD j) hlow
  rw [getElem_allRegs]
  simpa [hj] using hbit

/-! ### The admitted forms (R290 to R294) -/

theorem wellFormed_stm (k : BlockMode) (c : Cond) (w : Bool) (rn : Reg) (list : BitVec 16) :
    Instr.wellFormed (.stm k c w rn list) = (list != 0 && notPc rn && (!w || storeBaseOk list rn.val)) := by cases k <;> rfl

theorem wellFormed_ldm (k : BlockMode) (c : Cond) (w : Bool) (rn : Reg) (list : BitVec 16) :
    Instr.wellFormed (.ldm k c w rn list) = (list != 0 && notPc rn && (!w || !list.getLsbD rn.val)) := by cases k <;> rfl

theorem wellFormed_stmUsr (k : BlockMode) (c : Cond) (w : Bool) (rn : Reg) (list : BitVec 16) :
    Instr.wellFormed (.stmUsr k c w rn list) = (list != 0 && notPc rn && !w) := by cases k <;> rfl

theorem wellFormed_ldmRst (k : BlockMode) (c : Cond) (w : Bool) (rn : Reg) (list : BitVec 16) :
    Instr.wellFormed (.ldmRst k c w rn list) = Instr.wellFormed (.ldm k c w rn list) := by cases k <;> rfl

/-- The list and the base that every block transfer admits (R290). -/
def blockOk (rn : Reg) (list : BitVec 16) : Bool := list != 0 && notPc rn

theorem blockOk_iff {rn : Reg} {list : BitVec 16} : blockOk rn list = true ↔ list ≠ 0 ∧ rn ≠ 15 := by
  rw [blockOk, notPc, Bool.and_eq_true_iff, bne_iff_ne, bne_iff_ne]

theorem blockAddress_admitted (s : State) (k : BlockMode) {rn : Reg} {list : BitVec 16} (h : blockOk rn list = true) :
    s.blockAddress k rn list =
      .ok (blockLow k (s.readReg rn) (regsOf list).length, blockBase k (s.readReg rn) (regsOf list).length) := by
  obtain ⟨hlist, hrn⟩ := blockOk_iff.mp h
  rw [State.blockAddress, List.isEmpty_eq_false_iff.mpr (regsOf_ne_nil hlist), beq_false_of_ne hrn, faultIf_false, faultIf_false]
  cases k <;> rfl

/-- The base of an admitted STM is out of the list or first in it. -/
theorem stm_check_admitted {w : Bool} {rn : Reg} {list : BitVec 16} (h : (!w || storeBaseOk list rn.val) = true) :
    (w && (regsOf list).contains rn && (regsOf list).head? != some rn) = false := by
  cases w with
  | false => rfl
  | true =>
    by_cases hr : list.getLsbD rn.val = true
    · have hlow : list.setWidth rn.val = 0 := by
        rw [storeBaseOk, hr, Bool.not_true, Bool.false_or, Bool.false_or] at h
        exact eq_of_beq h
      rw [head?_regsOf hr hlow, bne_self_eq_false, Bool.and_false]
    · have hmem : (regsOf list).contains rn = false := by simpa [mem_regsOf] using hr
      rw [hmem]
      rfl

theorem base_notMem_of_admitted {w : Bool} {rn : Reg} {list : BitVec 16} (h : (!w || !list.getLsbD rn.val) = true)
    (hw : w = true) : rn ∉ regsOf list := by
  rw [mem_regsOf]
  simpa [hw] using h

theorem ldm_check_admitted {w : Bool} {rn : Reg} {list : BitVec 16} (h : (!w || !list.getLsbD rn.val) = true) :
    (w && (regsOf list).contains rn) = false := by
  cases w with
  | false => rfl
  | true => simpa using base_notMem_of_admitted h rfl

/-! ### The outcome after a block's accesses (R290; 20_memory.md R73) -/

/-- What follows an access needs to agree on its answer alone. -/
theorem after_congr {α : Type} {r : Result α} {f g : α → Host.Outcome State Fault Refusal} (h : ∀ x, r = .ok x → f x = g x) :
    after r f = after r g := by
  cases r with
  | error e => rfl
  | ok x => exact h x rfl

theorem finish_storeBlock_bind (s : State) (a : Word) (vs : List Word) (f : State → Result State) :
    finish (s.advance.storeBlock a vs >>= f) =
      after (blockFrom s a) fun b => after (wordsWritten s b vs) fun t => finish (f t.advance) := by
  rw [storeBlock_advance]
  cases blockFrom s a with
  | error e => rfl
  | ok b =>
    simp only [Except.bind, after]
    cases wordsWritten s b vs <;> rfl

theorem finish_loadBlock_bind (s : State) (a : Word) (n : Nat) (f : List Word × State → Result State) :
    finish (s.advance.loadBlock a n >>= f) =
      after (blockFrom s a) fun b => after (wordsRead s b n) fun x => finish (f (x.1, x.2.advance)) := by
  rw [loadBlock_advance]
  cases blockFrom s a with
  | error e => rfl
  | ok b =>
    simp only [Except.bind, after]
    cases wordsRead s b n <;> rfl

theorem wordsRead_ok {s t : State} {a : Word} {n : Nat} {vs : List Word} (h : wordsRead s a n = .ok (vs, t)) :
    ReadFrame s t ∧ vs.length = n :=
  readBlock_frame (readBlock_eq s a n ▸ h)

/-! ### The stores (R291, R293) -/

theorem storedReg_eq (s : State) (read : Reg → Word) :
    s.storedReg read = fun r => if r = 15 then pcToStore s else read r := by
  funext r
  rw [State.storedReg, pcStored_eq]

/-- STM writes its base back after the words. -/
theorem finish_storeMultiple (s : State) (k : BlockMode) {w : Bool} {rn : Reg} {list : BitVec 16} (hb : blockOk rn list = true)
    (hbase : (!w || storeBaseOk list rn.val) = true) :
    finish (s.storeMultiple k w rn list) =
      after (blockFrom s (blockLow k (s.readReg rn) (regsOf list).length)) fun b =>
        after (wordsWritten s b ((regsOf list).map fun r => if r = 15 then pcToStore s else s.readReg r)) fun t =>
          .next (based t w rn (blockBase k (s.readReg rn) (regsOf list).length)) := by
  simp only [State.storeMultiple, blockAddress_admitted s k hb, ok_bind, stm_check_admitted hbase, faultIf_false]
  rw [finish_storeBlock_bind, storedReg_eq]
  rfl

theorem finish_storeMultipleUser (s : State) (k : BlockMode) {rn : Reg} {list : BitVec 16} (hs : s.spsr?.isSome = true)
    (hb : blockOk rn list = true) :
    finish (s.storeMultipleUser k false rn list) =
      after (blockFrom s (blockLow k (s.readReg rn) (regsOf list).length)) fun b =>
        after (wordsWritten s b ((regsOf list).map fun r => if r = 15 then pcToStore s else s.readIn .usr r)) fun t =>
          .next t.advance := by
  have hnone : s.spsr?.isNone = false := by rw [← Option.not_isSome, hs, Bool.not_true]
  simp only [State.storeMultipleUser, hnone, faultIf_false, ok_bind, blockAddress_admitted s k hb]
  rw [← bind_pure (s.advance.storeBlock _ _), finish_storeBlock_bind, storedReg_eq]
  rfl

/-! ### The loads (R292, R294) -/

/-- The value loaded for R15, which is there where the list has R15. -/
theorem pcWord_eq {regs : List Reg} {vs : List Word} (h : vs.length = regs.length) :
    (if regs.contains 15 then vs.getLast? else none) = if 15 ∈ regs then some (lastOf vs) else none := by
  by_cases h15 : 15 ∈ regs
  · have hvs : vs ≠ [] := List.ne_nil_of_length_pos (h ▸ List.length_pos_of_mem h15)
    rw [if_pos (List.contains_iff_mem.mpr h15), if_pos h15, lastOf, List.getLastD_eq_getLast?, List.getLast?_eq_some_getLast hvs,
      Option.getD_some]
  · rw [if_neg (mt List.contains_iff_mem.mp h15), if_neg h15]

theorem loadRegs_admitted (s : State) (k : BlockMode) {w : Bool} {rn : Reg} {list : BitVec 16} (hb : blockOk rn list = true)
    (hbase : (!w || !list.getLsbD rn.val) = true) :
    s.loadRegs k w rn list =
      s.advance.loadBlock (blockLow k (s.readReg rn) (regsOf list).length) (regsOf list).length >>= fun x =>
        pure ((x.2.writeBack rn (backValue w (blockBase k (s.readReg rn) (regsOf list).length))).writeRegs ((regsOf list).zip x.1),
          if (regsOf list).contains 15 then x.1.getLast? else none) := by
  simp only [State.loadRegs, blockAddress_admitted s k hb, ok_bind, ldm_check_admitted hbase, faultIf_false]
  rfl

/-- The state after a block load that left `t`: the advance, the base where it is written back, then the registers of the list. -/
def blockLoaded (t : State) (w : Bool) (rn : Reg) (m : Word) (regs : List Reg) (vs : List Word) : State :=
  regsWritten (based t w rn m) regs vs

/-- LDM and its S form go on from the registers loaded and the value for R15. -/
theorem finish_loadRegs_bind (s : State) (k : BlockMode) {w : Bool} {rn : Reg} {list : BitVec 16} (hb : blockOk rn list = true)
    (hbase : (!w || !list.getLsbD rn.val) = true) (f : State × Option Word → Result State) :
    finish (s.loadRegs k w rn list >>= f) =
      after (blockFrom s (blockLow k (s.readReg rn) (regsOf list).length)) fun b =>
        after (wordsRead s b (regsOf list).length) fun x =>
          finish (f (blockLoaded x.2 w rn (blockBase k (s.readReg rn) (regsOf list).length) (regsOf list) x.1,
            if 15 ∈ regsOf list then some (lastOf x.1) else none)) := by
  rw [loadRegs_admitted s k hb hbase, bind_assoc, finish_loadBlock_bind]
  refine after_congr fun b _ => after_congr fun x hx => ?_
  rw [pure_bind, pcWord_eq (wordsRead_ok hx).2, writeBack_advance, writeRegs_eq, blockLoaded]

/-- LDM, after its loads: R15 is a branch (R292). -/
def ldmOutcome (p : State) (regs : List Reg) (v : Word) : Host.Outcome State Fault Refusal :=
  if 15 ∈ regs then branched p v else .next p

/-- LDM with S, after its loads: the CPSR from the SPSR `q`, then R15 as the restored T says (R294). -/
def ldmRstOutcome (p : State) (q : Word) (regs : List Reg) (v : Word) : Host.Outcome State Fault Refusal :=
  if modeOf (q.extractLsb' 0 5) = none then .fault (.illegalMode (q.extractLsb' 0 5))
  else if 15 ∉ regs then .next { p with cpsr := q }
  else if q.getLsbD 5 then .next { p with cpsr := q, pc := v &&& 0xFFFFFFFE#32 }
  else branched { p with cpsr := q } v

theorem finish_loadMultiple (s : State) (k : BlockMode) {w : Bool} {rn : Reg} {list : BitVec 16} (hb : blockOk rn list = true)
    (hbase : (!w || !list.getLsbD rn.val) = true) :
    finish (s.loadMultiple k w rn list) =
      after (blockFrom s (blockLow k (s.readReg rn) (regsOf list).length)) fun b =>
        after (wordsRead s b (regsOf list).length) fun x =>
          ldmOutcome (blockLoaded x.2 w rn (blockBase k (s.readReg rn) (regsOf list).length) (regsOf list) x.1) (regsOf list)
            (lastOf x.1) := by
  rw [State.loadMultiple, finish_loadRegs_bind s k hb hbase]
  refine after_congr fun b _ => after_congr fun x _ => ?_
  by_cases h15 : 15 ∈ regsOf list
  · simp only [ldmOutcome, if_pos h15, finish_writePcArm]
  · simp only [ldmOutcome, if_neg h15]
    rfl

/-- The registers loaded and the base are all that a block load changes beside the PC. -/
theorem blockLoaded_eq (t : State) (w : Bool) (rn : Reg) (m : Word) (regs : List Reg) (vs : List Word) :
    blockLoaded t w rn m regs vs = { t.advance with regs := (blockLoaded t w rn m regs vs).regs } := by
  have hbased : based t w rn m = { t.advance with regs := (based t w rn m).regs } := by
    cases w with
    | false => rfl
    | true => exact State.writeReg_eq t.advance rn m
  have hregs : ∀ (l : List (Reg × Word)) (p : State), p.writeRegs l = { p with regs := (p.writeRegs l).regs } := by
    intro l
    induction l with
    | nil => exact fun _ => rfl
    | cons x l ih =>
      intro p
      rw [State.writeRegs, ih, State.writeReg_eq]
  rw [blockLoaded, ← writeRegs_eq, hregs, hbased]

/-- The restore checks the mode field of the SPSR before anything that follows (10_state.md R35, R36). -/
theorem finish_restoreCpsr_bind {p : State} {j : Fin 5} (h : p.spsr? = some j) (f : State → Result State) :
    finish (p.restoreCpsr >>= f) =
      if modeOf (p.spsr[j].extractLsb' 0 5) = none then .fault (.illegalMode (p.spsr[j].extractLsb' 0 5))
      else finish (f { p with cpsr := p.spsr[j] }) := by
  split_ifs with hm
  · rw [restoreCpsr_of_illegal h hm]
    rfl
  · rw [restoreCpsr_of_legal h (Option.isSome_iff_ne_none.mpr hm), ok_bind]

theorem finish_writePcAfterRestore (p : State) (v : Word) :
    finish (p.writePcAfterRestore v) = if p.cpsr.getLsbD 5 then .next { p with pc := v &&& 0xFFFFFFFE#32 } else branched p v := by
  rw [writePcAfterRestore_eq, apply_ite finish, finish_ok, finish_writePcArm]
  rfl

theorem finish_loadMultipleRestore (s : State) (k : BlockMode) {w : Bool} {rn : Reg} {list : BitVec 16} {j : Fin 5}
    (hs : s.spsr? = some j) (hb : blockOk rn list = true) (hbase : (!w || !list.getLsbD rn.val) = true) :
    finish (s.loadMultipleRestore k w rn list) =
      after (blockFrom s (blockLow k (s.readReg rn) (regsOf list).length)) fun b =>
        after (wordsRead s b (regsOf list).length) fun x =>
          ldmRstOutcome (blockLoaded x.2 w rn (blockBase k (s.readReg rn) (regsOf list).length) (regsOf list) x.1) s.spsr[j]
            (regsOf list) (lastOf x.1) := by
  rw [State.loadMultipleRestore, hs, Option.isNone_some, faultIf_false, ok_bind, finish_loadRegs_bind s k hb hbase]
  refine after_congr fun b _ => after_congr fun x hx => ?_
  have hbus := (wordsRead_ok hx).1.bus
  generalize hp : blockLoaded x.2 w rn (blockBase k (s.readReg rn) (regsOf list).length) (regsOf list) x.1 = p
  -- neither the loads nor the register writes touch the mode or its SPSR
  have hspsr : p.spsr = s.spsr := by rw [← hp, blockLoaded_eq]; exact hbus.spsr
  have hcpsr : p.cpsr = s.cpsr := by rw [← hp, blockLoaded_eq]; exact hbus.cpsr
  have hcur : p.spsr? = some j := by rw [State.spsr?, State.mode?_of_cpsr hcpsr]; exact hs
  rw [finish_restoreCpsr_bind hcur, ldmRstOutcome, hspsr]
  refine if_congr Iff.rfl rfl ?_
  by_cases h15 : 15 ∈ regsOf list
  · rw [if_neg (not_not.mpr h15)]
    simp only [if_pos h15, finish_writePcAfterRestore]
  · rw [if_pos h15]
    simp only [if_neg h15]
    rfl

/-! ### An aligned block in internal memory (20_memory.md R63, R64) -/

theorem blockFrom_aligned (s : State) {a : Word} (h : a.toNat % 4 = 0) : blockFrom s a = .ok a := if_pos h

/-- The `n` words from `a` up. -/
def wordsAt (s : State) (a n : Nat) : List Word := (List.range n).map fun j => wordAt s (a + 4 * j)

theorem wordsAt_length (s : State) (a n : Nat) : (wordsAt s a n).length = n := by
  rw [wordsAt, List.length_map, List.length_range]

theorem lastOf_wordsAt (s : State) (a : Nat) {n : Nat} (h : n ≠ 0) : lastOf (wordsAt s a n) = wordAt s (a + 4 * (n - 1)) := by
  obtain ⟨n, rfl⟩ := Nat.exists_eq_succ_of_ne_zero h
  simp [lastOf, wordsAt, List.range_succ]

theorem add_span_toNat {a : Word} {n : Nat} (h : a.toNat + 4 * n < 2 ^ 32) : (a + span n).toNat = a.toNat + 4 * n := by
  rw [span, BitVec.toNat_add, BitVec.toNat_ofNat]
  omega

theorem wordsRead_succ (s : State) (a : Word) (n : Nat) : wordsRead s a (n + 1) = wordsRead s a n >>= fun x => wordRead a x n := by
  rw [wordsRead, List.range_succ, List.foldlM_append]
  exact bind_congr fun x => bind_pure _

theorem wordsRead_inside {s : State} {a : Word} {n : Nat} (h : inMemory s a (4 * n)) :
    wordsRead s a n = .ok (wordsAt s a.toNat n, s) := by
  obtain ⟨hin, hmem⟩ := h
  induction n with
  | zero => rfl
  | succ n ih =>
    have hto : (a + span n).toNat = a.toNat + 4 * n := add_span_toNat (by omega)
    have hword : (a + span n).toNat + widthBytes .word ≤ s.cfg.memSize := by rw [hto, widthBytes]; omega
    rw [wordsRead_succ, ih (by omega), ok_bind, wordRead, memRead_inside hword, hto]
    simp only [wordsAt, List.range_succ, List.map_append]
    rfl

theorem writeBlock_inside {s : State} {a : Nat} {vs : List Word} (h : a + 4 * vs.length ≤ s.cfg.memSize)
    (hmem : s.cfg.memSize ≤ 2 ^ 32) (m : Memory) :
    State.writeBlock { s with mem := m } (BitVec.ofNat 32 a) vs = .ok { s with mem := writeWords s m a vs } := by
  induction vs generalizing a m with
  | nil => rfl
  | cons v vs ih =>
    rw [List.length_cons] at h
    have hto : (BitVec.ofNat 32 a).toNat = a := by rw [BitVec.toNat_ofNat]; omega
    have hword : (BitVec.ofNat 32 a).toNat + widthBytes .word ≤ ({ s with mem := m } : State).cfg.memSize := by
      rw [hto, widthBytes]; change a + 4 ≤ s.cfg.memSize; omega
    rw [State.writeBlock, memWrite_inside hword, ok_bind, hto, writeWords]
    exact BitVec.ofNat_add a 4 ▸ ih (by omega) _

theorem wordsWritten_inside {s : State} {a : Word} {vs : List Word} (h : inMemory s a (4 * vs.length)) :
    wordsWritten s a vs = .ok { s with mem := writeWords s s.mem a.toNat vs } := by
  obtain ⟨hin, hmem⟩ := h
  have hwrite := writeBlock_inside hin hmem s.mem
  rwa [BitVec.ofNat_toNat, BitVec.setWidth_eq, writeBlock_eq] at hwrite

theorem after_blockWritten_inside {s : State} {a : Word} {regs : List Reg} (hin : inMemory s a (4 * regs.length))
    (ha : a.toNat % 4 = 0) (value : Reg → Word) (f : State → Host.Outcome State Fault Refusal) :
    (after (blockFrom s a) fun b => after (wordsWritten s b (regs.map value)) f) =
      f { s with mem := writeWords s s.mem a.toNat (regs.map value) } := by
  rw [← List.length_map value] at hin
  rw [blockFrom_aligned s ha, after, wordsWritten_inside hin, after]

theorem after_blockRead_inside {s : State} {a : Word} {n : Nat} (hin : inMemory s a (4 * n)) (ha : a.toNat % 4 = 0)
    (f : List Word × State → Host.Outcome State Fault Refusal) :
    (after (blockFrom s a) fun b => after (wordsRead s b n) f) = f (wordsAt s a.toNat n, s) := by
  rw [blockFrom_aligned s ha, after, wordsRead_inside hin, after]

/-! ### What a block load leaves (R292) -/

theorem readReg_writeReg_of_ne (s : State) {r q : Reg} (v : Word) (h : q ≠ r) : (s.writeReg r v).readReg q = s.readReg q := by
  by_cases hr : r = 15
  · rw [hr, State.writeReg_pc_reg]
  · rw [State.readReg_writeReg s r q v hr, if_neg h]

theorem regsWritten_cons (t : State) (r : Reg) (regs : List Reg) (v : Word) (vs : List Word) :
    regsWritten t (r :: regs) (v :: vs) = regsWritten (t.writeReg r v) regs vs := rfl

theorem readReg_regsWritten_of_notMem {regs : List Reg} {q : Reg} (h : q ∉ regs) (t : State) (vs : List Word) :
    (regsWritten t regs vs).readReg q = t.readReg q := by
  induction regs generalizing t vs with
  | nil => rfl
  | cons r regs ih =>
    rw [List.mem_cons, not_or] at h
    obtain ⟨hr, hregs⟩ := h
    cases vs with
    | nil => rfl
    | cons v vs => rw [regsWritten_cons, ih hregs, readReg_writeReg_of_ne _ _ hr]

/-- No register of a list is written twice. -/
theorem readReg_regsWritten_getElem {regs : List Reg} (hnd : regs.Nodup) (t : State) {vs : List Word}
    (hlen : vs.length = regs.length) {j : Nat} (hj : j < regs.length) (h15 : regs[j] ≠ 15) :
    (regsWritten t regs vs).readReg regs[j] = vs[j] := by
  induction regs generalizing t vs j with
  | nil => exact absurd hj (Nat.not_lt_zero j)
  | cons r regs ih =>
    obtain ⟨hr, hnd⟩ := List.nodup_cons.mp hnd
    cases vs with
    | nil => cases hlen
    | cons v vs =>
      rw [regsWritten_cons]
      cases j with
      | zero =>
        rw [List.getElem_cons_zero] at h15
        rw [List.getElem_cons_zero, List.getElem_cons_zero, readReg_regsWritten_of_notMem hr,
          State.readReg_writeReg _ _ _ _ h15, if_pos rfl]
      | succ j => exact ih hnd (t.writeReg r v) (Nat.succ.inj hlen) (Nat.lt_of_succ_lt_succ hj) h15

/-- A general register is read from the file alone. -/
theorem readIn_of_regs {s t : State} (h : t.regs = s.regs) (b : Bank) {r : Reg} (hr : r ≠ 15) : t.readIn b r = s.readIn b r := by
  unfold State.readIn State.readPhys
  rw [h]
  cases hp : physReg b r with
  | none => exact absurd ((physReg_eq_none b r).mp hp) hr
  | some p => rfl

theorem based_frame (s : State) (w : Bool) (rn : Reg) (m : Word) : Frame s.bank (baseIf w rn) 0 s (based s w rn m) := by
  cases w with
  | false => exact Frame.advance s.bank s
  | true => exact (advance_writeReg_frame s rn m).1

theorem blockLoaded_frame (s : State) (w : Bool) (rn : Reg) (m : Word) {regs : List Reg} {vs : List Word}
    (hlen : vs.length = regs.length) : Frame s.bank (regs ++ baseIf w rn) 0 s (blockLoaded s w rn m regs vs) := by
  have hbased := based_frame s w rn m
  have hregs := Frame.writeRegs (hbased.bank (BitVec.zero_and)) (regs.zip vs)
  rw [zip_fst hlen, writeRegs_eq] at hregs
  exact (hbased.trans hregs).mono (fun r hr => .inl (by simpa [or_comm] using hr)) (by simp)

theorem blockLoaded_bank (s : State) (w : Bool) (rn : Reg) (m : Word) (regs : List Reg) (vs : List Word) :
    (blockLoaded s w rn m regs vs).bank = s.bank := by
  rw [blockLoaded_eq]
  rfl

/-- The state after a block load of the words at `a`, with a status word and a PC given. -/
def blockReturned (s : State) (w : Bool) (rn : Reg) (m : Word) (regs : List Reg) (a : Nat) (c x : Word) : State :=
  { blockLoaded s w rn m regs (wordsAt s a regs.length) with cpsr := c, pc := x }

section Returned
variable {s : State} {w : Bool} {rn : Reg} {m : Word} {regs : List Reg} {a : Nat} {c x : Word}

theorem blockReturned_eq : blockReturned s w rn m regs a c x =
    { s with regs := (blockReturned s w rn m regs a c x).regs, cpsr := c, pc := x } :=
  congrArg (fun t : State => { t with cpsr := c, pc := x }) (blockLoaded_eq s w rn m regs _)

theorem readIn_blockReturned {r : Reg} (hr : r ≠ 15) : (blockReturned s w rn m regs a c x).readIn s.bank r =
    (blockLoaded s w rn m regs (wordsAt s a regs.length)).readReg r := by
  rw [State.readReg, blockLoaded_bank]
  exact readIn_of_regs (by rfl) s.bank hr

theorem readIn_blockReturned_base (hrn : rn ≠ 15) (hmem : w = true → rn ∉ regs) (hw : w = true) :
    (blockReturned s w rn m regs a c x).readIn s.bank rn = m := by
  rw [readIn_blockReturned hrn, blockLoaded, readReg_regsWritten_of_notMem (hmem hw), based, if_pos hw]
  exact (State.readReg_writeReg s.advance rn rn m hrn).trans (if_pos rfl)

theorem blockReturned_loaded (hnd : regs.Nodup) :
    loaded s (blockReturned s w rn m regs a c x) s.bank regs a (regs ++ baseIf w rn) := by
  refine ⟨fun j hj h15 => ?_, (blockLoaded_frame s w rn m (wordsAt_length s a _)).regs⟩
  rw [readIn_blockReturned h15, blockLoaded, readReg_regsWritten_getElem hnd _ (wordsAt_length s a _) hj h15]
  simp only [wordsAt, List.getElem_map, List.getElem_range]

end Returned

theorem ldmOutcome_next {p : State} {regs : List Reg} {v : Word} (h : 15 ∉ regs ∨ v.toNat % 4 = 0) :
    ldmOutcome p regs v = .next { p with pc := if 15 ∈ regs then v else p.pc } := by
  by_cases h15 : 15 ∈ regs
  · have hv : v.toNat % 4 = 0 := h.resolve_left (not_not.mpr h15)
    rw [ldmOutcome, if_pos h15, branched, if_pos hv, if_pos h15]
  · rw [ldmOutcome, if_neg h15, if_neg h15]

theorem ldmOutcome_fault {p : State} {regs : List Reg} {v : Word} (h15 : 15 ∈ regs) (hv : v.toNat % 4 ≠ 0) :
    ldmOutcome p regs v = .fault (.unpredictable .unalignedPcWrite) := by
  rw [ldmOutcome, if_pos h15, branched, if_neg hv]

theorem ldmRstOutcome_next {p : State} {q : Word} {regs : List Reg} {v : Word} (hq : (modeOf (q.extractLsb' 0 5)).isSome = true)
    (h : 15 ∉ regs ∨ q.getLsbD 5 = true ∨ v.toNat % 4 = 0) :
    ldmRstOutcome p q regs v = .next { p with
      cpsr := q, pc := if 15 ∈ regs then (if q.getLsbD 5 then v &&& 0xFFFFFFFE#32 else v) else p.pc } := by
  rw [ldmRstOutcome, if_neg (Option.isSome_iff_ne_none.mp hq)]
  by_cases h15 : 15 ∈ regs
  · rw [if_neg (not_not.mpr h15), if_pos h15]
    by_cases ht : q.getLsbD 5 = true
    · rw [if_pos ht, if_pos ht]
    · have hv : v.toNat % 4 = 0 := (h.resolve_left (not_not.mpr h15)).resolve_left ht
      rw [if_neg ht, if_neg ht, branched, if_pos hv]
  · rw [if_pos h15, if_neg h15]

theorem ldmRstOutcome_illegal {p : State} {q : Word} {regs : List Reg} {v : Word} (hq : modeOf (q.extractLsb' 0 5) = none) :
    ldmRstOutcome p q regs v = .fault (.illegalMode (q.extractLsb' 0 5)) := if_pos hq

/-- LDM leaves the CPSR, so the state it returns has that of the state before. -/
theorem blockReturned_of_pc (s : State) (w : Bool) (rn : Reg) (m : Word) (regs : List Reg) (a : Nat) (x : Word) :
    { blockLoaded s w rn m regs (wordsAt s a regs.length) with pc := x } = blockReturned s w rn m regs a s.cpsr x := by
  rw [blockReturned, blockLoaded_eq]
  rfl

theorem blockLoaded_pc (s : State) (w : Bool) (rn : Reg) (m : Word) (regs : List Reg) (vs : List Word) :
    (blockLoaded s w rn m regs vs).pc = s.advance.pc := by
  rw [blockLoaded_eq]

/-! ### The families, each by its one meaning -/

theorem exec_stm (k : BlockMode) (c : Cond) (w : Bool) (rn : Reg) (list : BitVec 16) (s : State) :
    exec (.stm k c w rn list) s = armExec c (fun s => s.storeMultiple k w rn list) s := by cases k <;> rfl

theorem exec_ldm (k : BlockMode) (c : Cond) (w : Bool) (rn : Reg) (list : BitVec 16) (s : State) :
    exec (.ldm k c w rn list) s = armExec c (fun s => s.loadMultiple k w rn list) s := by cases k <;> rfl

theorem exec_stmUsr (k : BlockMode) (c : Cond) (w : Bool) (rn : Reg) (list : BitVec 16) (s : State) :
    exec (.stmUsr k c w rn list) s = armExec c (fun s => s.storeMultipleUser k w rn list) s := by cases k <;> rfl

theorem exec_ldmRst (k : BlockMode) (c : Cond) (w : Bool) (rn : Reg) (list : BitVec 16) (s : State) :
    exec (.ldmRst k c w rn list) s = armExec c (fun s => s.loadMultipleRestore k w rn list) s := by cases k <;> rfl

/-! ### The statements -/

/-- Settles O30: an admitted STM is its block store and then the writeback, which in internal memory keeps the words stored. -/
theorem stmStoresRegisters : Obligations.StmStoresRegisters := by
  intro k c w rn list s hw hc
  obtain ⟨hb, hbase⟩ := Bool.and_eq_true_iff.mp (wellFormed_stm k c w rn list ▸ hw)
  rw [exec_stm, armExec_of_passed hc, finish_storeMultiple s k hb hbase]
  refine ⟨rfl, fun hin ha => ?inside⟩
  rw [after_blockWritten_inside hin ha, based_withMem]

/-- Settles O31: in internal memory the words loaded are those of the block, and R15 in the list is a branch. -/
theorem ldmLoadsRegisters : Obligations.LdmLoadsRegisters := by
  intro k c w rn list s hw hc
  obtain ⟨hb, hbase⟩ := Bool.and_eq_true_iff.mp (wellFormed_ldm k c w rn list ▸ hw)
  obtain ⟨hlist, hrn⟩ := blockOk_iff.mp hb
  have hlen : (regsOf list).length ≠ 0 := List.length_eq_zero_iff.not.mpr (regsOf_ne_nil hlist)
  rw [exec_ldm, armExec_of_passed hc, finish_loadMultiple s k hb hbase]
  refine ⟨rfl, fun hin ha => ?inside⟩
  rw [after_blockRead_inside hin ha, lastOf_wordsAt s _ hlen]
  refine ⟨fun h => ?next, ldmOutcome_fault⟩
  rw [ldmOutcome_next h, blockReturned_of_pc, blockLoaded_pc]
  exact ⟨_, rfl, blockReturned_loaded (nodup_regsOf list),
    readIn_blockReturned_base hrn (base_notMem_of_admitted hbase), blockReturned_eq⟩

/-- Settles O32: without an SPSR the check of the mode faults; else the values are read in the User view and only the PC follows. -/
theorem stmUserStoresUserRegisters : Obligations.StmUserStoresUserRegisters := by
  intro k c w rn list s hc
  rw [exec_stmUsr, armExec_of_passed hc]
  refine ⟨fun hs => ?user, fun hs hw => ?privileged⟩
  case user =>
    rw [State.storeMultipleUser, hs]
    rfl
  case privileged =>
    obtain ⟨hb, hback⟩ := Bool.and_eq_true_iff.mp (wellFormed_stmUsr k c w rn list ▸ hw)
    obtain rfl : w = false := (Bool.not_eq_true' w).mp hback
    rw [finish_storeMultipleUser s k hs hb]
    refine ⟨rfl, fun hin ha => ?inside⟩
    rw [after_blockWritten_inside hin ha]
    rfl

/-- Settles O33: without an SPSR its check faults; else the registers are loaded in the bank before, then the SPSR is the CPSR. -/
theorem ldmRestoreReturns : Obligations.LdmRestoreReturns := by
  intro k c w rn list s hc
  rw [exec_ldmRst, armExec_of_passed hc]
  refine ⟨fun hs => ?user, fun j hs hw => ?privileged⟩
  case user =>
    rw [State.loadMultipleRestore, hs]
    rfl
  case privileged =>
    rw [wellFormed_ldmRst, wellFormed_ldm] at hw
    obtain ⟨hb, hbase⟩ := Bool.and_eq_true_iff.mp hw
    obtain ⟨hlist, hrn⟩ := blockOk_iff.mp hb
    have hlen : (regsOf list).length ≠ 0 := List.length_eq_zero_iff.not.mpr (regsOf_ne_nil hlist)
    rw [finish_loadMultipleRestore s k hs hb hbase]
    refine ⟨rfl, fun hin ha => ?inside⟩
    rw [after_blockRead_inside hin ha, lastOf_wordsAt s _ hlen]
    refine ⟨ldmRstOutcome_illegal, fun hq h => ?next⟩
    rw [ldmRstOutcome_next hq h, blockLoaded_pc]
    exact ⟨_, rfl, blockReturned_loaded (nodup_regsOf list),
      readIn_blockReturned_base hrn (base_notMem_of_admitted hbase), blockReturned_eq⟩

end Sys2Proof.Claims
end

section
/-! UNDEFINED words and halfwords (47_swi_and_undefined.md R310; 30_encoding.md R106, R130): words that agree on the bits of a mask are of
no row when every row's value differs from theirs at a bit that its own mask fixes too. -/
namespace Sys2Proof
open Sys2Proof.Machine

/-! ### Words with given fields, as a mask and a value -/

theorem and_put_allOnes_of_field {w lo n : Nat} {x : BitVec w} {f : BitVec n} (h : x.extractLsb' lo n = f) :
    x &&& put w lo (BitVec.allOnes n) = put w lo f := by
  subst h
  apply BitVec.eq_of_getLsbD_eq
  intro i hi
  rw [BitVec.getLsbD_and, put_getLsbD, put_getLsbD, BitVec.getLsbD_allOnes, BitVec.getLsbD_extractLsb']
  by_cases hlo : lo ≤ i
  · rw [Nat.add_sub_cancel' hlo, decide_eq_true hi, decide_eq_true hlo]
    exact Bool.and_comm ..
  · rw [decide_eq_false hlo, Bool.and_false, Bool.false_and, Bool.false_and, Bool.and_false]

theorem extractLsb'_one_of_bit {w i : Nat} {x : BitVec w} {b : Bool} (h : x.getLsbD i = b) :
    x.extractLsb' i 1 = BitVec.ofBool b := by
  apply BitVec.eq_of_getLsbD_eq
  intro j hj
  obtain rfl : j = 0 := Nat.lt_one_iff.mp hj
  simp [h]

theorem and_put_allOnes_of_bit {w i : Nat} {x : BitVec w} {b : Bool} (h : x.getLsbD i = b) :
    x &&& put w i (BitVec.allOnes 1) = put w i (BitVec.ofBool b) :=
  and_put_allOnes_of_field (extractLsb'_one_of_bit h)

theorem and_or_of_and {w : Nat} {x m₁ m₂ v₁ v₂ : BitVec w} (h₁ : x &&& m₁ = v₁) (h₂ : x &&& m₂ = v₂) :
    x &&& (m₁ ||| m₂) = v₁ ||| v₂ := by
  rw [BitVec.and_or_distrib_left, h₁, h₂]

/-! ### No row accepts them -/

/-- The words that have the value `v` under the mask `m` differ from every row of the table at a bit that the row fixes. -/
abbrev ApartFromRows {w : Nat} (rows : List (Row w)) (m v : BitVec w) : Prop :=
  ∀ r ∈ rows, r.value &&& (r.mask &&& m) ≠ v &&& (r.mask &&& m)

theorem rowOf_eq_none_of_apart {w : Nat} {rows : List (Row w)} {x m v : BitVec w} (hx : x &&& m = v)
    (h : ApartFromRows rows m v) : rowOf rows x = none := by
  refine rowOf_eq_none_iff.mpr fun r hr => eq_false_of_ne_true fun hacc => h r hr ?_
  calc r.value &&& (r.mask &&& m) = x &&& (r.mask &&& m) := Row.value_and_of_accepts hacc m
    _ = x &&& m &&& (r.mask &&& m) := by
      rw [BitVec.and_assoc, BitVec.and_comm r.mask, ← BitVec.and_assoc m m, BitVec.and_self]
    _ = v &&& (r.mask &&& m) := by rw [hx]

theorem decodeArm_of_apart {x m v : Word} (hx : x &&& m = v) (h : ApartFromRows armRows m v) :
    decodeArm x = .error (.undefinedArm x) :=
  decodeArm_of_rowOf_none (rowOf_eq_none_of_apart hx h)

theorem decodeThumb_of_apart {x m v : Half} (hx : x &&& m = v) (h : ApartFromRows thumbRows m v) :
    decodeThumb x = .error (.undefinedThumb x) :=
  decodeThumb_of_rowOf_none (rowOf_eq_none_of_apart hx h)

/-- Settles O3: the step of a rejected code is the advance; the words of each class have fixed fields that every row contradicts. -/
theorem undefinedWordsOnlyAdvance : Obligations.UndefinedWordsOnlyAdvance := by
  refine ⟨fun s t code r hh hf hd => Claims.step_of_decode_error hh hf hd, fun w h25 h4 => ?undefinedClass, fun w h => ?coprocessor,
    fun w h25 h20 h7 h6 h4 => ?doubleword, fun h h8 => ?condition14, fun h h11 => ?blxSuffix⟩
  case undefinedClass =>
    exact decodeArm_of_apart (and_or_of_and (and_put_allOnes_of_field h25) (and_put_allOnes_of_bit h4)) (by decide +kernel)
  case coprocessor =>
    rcases h with h25 | h24
    · exact decodeArm_of_apart (and_put_allOnes_of_field h25) (by decide +kernel)
    · exact decodeArm_of_apart (and_put_allOnes_of_field h24) (by decide +kernel)
  case doubleword =>
    exact decodeArm_of_apart
      (and_or_of_and (and_put_allOnes_of_field h25) (and_or_of_and (and_put_allOnes_of_bit h20)
        (and_or_of_and (and_put_allOnes_of_bit h7) (and_or_of_and (and_put_allOnes_of_bit h6) (and_put_allOnes_of_bit h4)))))
      (by decide +kernel)
  case condition14 => exact decodeThumb_of_apart (and_put_allOnes_of_field h8) (by decide +kernel)
  case blxSuffix => exact decodeThumb_of_apart (and_put_allOnes_of_field h11) (by decide +kernel)

end Sys2Proof
end

section
/-! The services of SWI (47_swi_and_undefined.md R300 to R308): which service a number runs, the quotient and remainder of DIV by their
uniqueness, and the root of SQRT as the invariant of its bit loop. -/
namespace Sys2Proof.Claims
open Sys2Proof Sys2Proof.Machine

/-! ### The dispatch (R300, R301, R308) -/

theorem exec_swi (c : Cond) (comment : BitVec 24) (s : State) :
    exec (.swi c comment) s = armExec c (fun s => s.service (s.swiNumber (.swi c comment) (get comment 16 8))) s := rfl

theorem exec_swiT (value8 : BitVec 8) (s : State) :
    exec (.swiT value8) s = finish (s.service (s.swiNumber (.swiT value8) value8)) := rfl

/-- A SWI that executes runs the service of its number. -/
theorem exec_of_serviceIs {s : State} {i : Instr} {svc : Word} (h : serviceIs s i svc) : exec i s = finish (s.service svc) := by
  cases i
  case swi c comment =>
    obtain ⟨hc, hn⟩ := h
    have hn : svc = s.swiNumber (.swi c comment) (get comment 16 8) := hn
    rw [exec_swi, armExec_of_passed hc, hn]
  case swiT value8 =>
    have hn : svc = s.swiNumber (.swiT value8) value8 := h
    rw [exec_swiT, hn]
  all_goals exact h.elim

/-- With distinct numbers each number runs its own service. -/
theorem service_of_nodup {s : State} (h : s.cfg.services.Nodup) :
    s.service s.cfg.swiExit = serviceExit s ∧ s.service s.cfg.swiDiv = serviceDiv s ∧ s.service s.cfg.swiSqrt = serviceSqrt s ∧
    s.service s.cfg.swiAtan = serviceAtan s ∧ s.service s.cfg.swiAtan2 = serviceAtan2 s ∧
    s.service s.cfg.swiBgAffine = serviceBgAffine s := by
  simp only [Config.services, List.nodup_cons, List.mem_cons, List.not_mem_nil, or_false, not_or] at h
  simp only [State.service]
  grind -- every number tested before a service's own is another one

theorem service_of_notMem {s : State} {svc : Word} (h : svc ∉ s.cfg.services) : s.service svc = .ok s.advance := by
  simp only [Config.services, List.mem_cons, List.not_mem_nil, or_false, not_or] at h
  obtain ⟨hexit, hdiv, hsqrt, hatan, hatan2, haffine⟩ := h
  simp only [State.service, hexit, hdiv, hsqrt, hatan, hatan2, haffine, if_false]

/-! ### DIV (R304) -/

/-- The quotient toward zero and the remainder of the numerator's sign are the only ones. -/
theorem tdiv_tmod_of_sign {n d q r : Int} (hd : d ≠ 0) (he : n = q * d + r) (hr : r.natAbs < d.natAbs) (hs : 0 ≤ n * r) :
    n.tdiv d = q ∧ n.tmod d = r := by
  have he' : r + d * q = n := by rw [he, Int.mul_comm, Int.add_comm]
  rcases lt_trichotomy n 0 with hn | rfl | hn
  · have hneg : r ≤ 0 := nonpos_of_mul_nonneg_right hs hn
    exact (Int.tdiv_tmod_unique' hn.le hd).mpr ⟨he', by omega, hneg⟩
  · have hdvd : d ∣ r := ⟨-q, by linarith⟩
    obtain rfl : r = 0 := Int.eq_zero_of_dvd_of_natAbs_lt_natAbs hdvd hr
    exact (Int.tdiv_tmod_unique le_rfl hd).mpr ⟨he', by omega, by omega⟩
  · have hpos : 0 ≤ r := nonneg_of_mul_nonneg_right hs hn
    exact (Int.tdiv_tmod_unique hn.le hd).mpr ⟨he', hpos, by omega⟩

theorem serviceDiv_zero {s : State} (h : s.readReg 1 = 0) : serviceDiv s = .error .divideByZero := by
  simp only [serviceDiv, h]
  rfl

theorem serviceDiv_of_sign {s : State} {q r : Int} (h0 : s.readReg 1 ≠ 0)
    (he : (s.readReg 0).toInt = q * (s.readReg 1).toInt + r) (hr : r.natAbs < (s.readReg 1).toInt.natAbs)
    (hs : 0 ≤ (s.readReg 0).toInt * r) :
    serviceDiv s = .ok (((s.advance.writeReg 0 (BitVec.ofInt 32 q)).writeReg 1 (BitVec.ofInt 32 r)).writeReg 3
      (BitVec.ofNat 32 q.natAbs)) := by
  have hd : (s.readReg 1).toInt ≠ 0 := fun h => h0 (BitVec.toInt_inj.mp h)
  obtain ⟨hq, hm⟩ := tdiv_tmod_of_sign hd he hr hs
  simp only [serviceDiv, quotient, remainder, quotientAbs, hq, hm, beq_eq_false_iff_ne.mpr hd]
  rfl

/-! ### SQRT (R305) -/

/-- The bit loop keeps `r * r ≤ x < (r + 2 ^ k) * (r + 2 ^ k)`, which for `k = 0` says that `r` is the floor of the root. -/
theorem sqrtBits_eq_sqrt {x k r : Nat} (hlo : r * r ≤ x) (hhi : x < (r + 2 ^ k) * (r + 2 ^ k)) : sqrtBits x k r = x.sqrt := by
  induction k generalizing r with
  | zero => exact Nat.eq_sqrt.mpr ⟨hlo, hhi⟩
  | succ k ih =>
    rw [sqrtBits]
    split
    next h => exact ih h (by rwa [Nat.add_assoc, ← Nat.two_mul, ← Nat.pow_succ'])
    next h => exact ih hlo (Nat.lt_of_not_le h)

theorem serviceSqrt_of_floor {s : State} {r : Nat} (hlo : r * r ≤ (s.readReg 0).toNat)
    (hhi : (s.readReg 0).toNat < (r + 1) * (r + 1)) : serviceSqrt s = .ok (s.advance.writeReg 0 (BitVec.ofNat 32 r)) := by
  have hr : r = (s.readReg 0).toNat.sqrt := Nat.eq_sqrt.mpr ⟨hlo, hhi⟩
  have hx : (s.readReg 0).toNat < (0 + 2 ^ 16) * (0 + 2 ^ 16) := (s.readReg 0).isLt
  rw [serviceSqrt, sqrtBits_eq_sqrt (Nat.zero_le _) hx, hr]

/-- Settles O34: each number runs its service, whose outcome is that of its rule; BGAFFINE is accesses to the bus alone. -/
theorem swiServices : Obligations.SwiServices := by
  intro s i svc hi hn
  obtain ⟨hexit, hdiv, hsqrt, hatan, hatan2, haffine⟩ := service_of_nodup hn
  rw [exec_of_serviceIs hi]
  refine ⟨?exit, ?divZero, ?div, ?sqrt, ?atan, ?atan2, ?bgAffine, fun h => by rw [service_of_notMem h, finish_ok]⟩
  all_goals rintro rfl
  case exit => rw [hexit, serviceExit, finish_ok]
  case divZero =>
    intro h0
    rw [hdiv, serviceDiv_zero h0, finish_error]
  case div =>
    intro h0 q r he hr hs
    rw [hdiv, serviceDiv_of_sign h0 he hr hs, finish_ok]
  case sqrt =>
    intro r hlo hhi
    rw [hsqrt, serviceSqrt_of_floor hlo hhi, finish_ok]
  case atan => rw [hatan, serviceAtan, finish_ok]
  case atan2 => rw [hatan2, serviceAtan2, finish_ok]
  case bgAffine =>
    intro t h
    rw [haffine] at h
    exact (accesses_frame (finish_next.mp h)).eq

end Sys2Proof.Claims
end

section
/-! What every instruction and every step leave alone: registers, SPSRs, `halted` (10_state.md), and the CPSR below its f byte in User
mode (10_state.md R39; 44_arm_psr_transfer.md R252; 60_exceptions.md R410). -/
namespace Sys2Proof.Machine
open Sys2Proof

/-! ### The CPSR below the f byte, T apart -/

/-- No CPSR bit below the f byte differs but T: the mode, I, F, A, E and the reserved bits there are as before. -/
def StatusKept (s t : State) : Prop := t.cpsr &&& 0x00FFFFDF#32 = s.cpsr &&& 0x00FFFFDF#32

/-- Words that agree outside a mask agree on any bits that the mask leaves out. -/
theorem and_eq_of_and_not_eq {v w m k : Word} (h : v &&& ~~~m = w &&& ~~~m) (hk : m &&& k = 0) : v &&& k = w &&& k := by
  have hmk : ~~~m &&& k = k := by
    apply BitVec.eq_of_getLsbD_eq
    intro i hi
    have hbit := congrArg (·.getLsbD i) hk
    simp only [BitVec.getLsbD_and, BitVec.getLsbD_not, hi, decide_true, Bool.true_and] at hbit ⊢
    cases hm : m.getLsbD i <;> simp_all
  rw [← hmk, ← BitVec.and_assoc, h, BitVec.and_assoc]

theorem StatusKept.of_cpsr {s t : State} (h : t.cpsr = s.cpsr) : StatusKept s t := by rw [StatusKept, h]

/-- An instruction that may not write those bits keeps them. -/
theorem StatusKept.of_statusMask {i : Instr} {s t : State} (h : exec i s = .next t) (hm : statusMask i &&& 0x00FFFFDF#32 = 0) :
    StatusKept s t :=
  and_eq_of_and_not_eq (frameStatus i s t h) hm

theorem Frame.statusKept {b : Bank} {ds : List Reg} {m : Word} {s t : State} (h : Frame b ds m s t)
    (hm : m &&& 0x00FFFFDF#32 = 0) : StatusKept s t :=
  and_eq_of_and_not_eq h.cpsr hm

/-- The mode field is among the bits kept. -/
theorem StatusKept.mode? {s t : State} (h : StatusKept s t) : t.mode? = s.mode? := by
  have hget : ∀ v : Word, get (v &&& 0x00FFFFDF#32) 0 5 = get v 0 5 := fun v => by
    rw [get_and]
    exact BitVec.and_allOnes
  have hfield : get t.cpsr 0 5 = get s.cpsr 0 5 := by rw [← hget t.cpsr, h, hget]
  rw [State.mode?, State.mode?, State.modeField, State.modeField, hfield]

/-! ### The instructions that may write them: a restore, and MSR to the CPSR -/

/-- The bits are kept, or a privileged instruction wrote them, with a legal mode field (10_state.md R35, R36, R39). -/
def StatusKeptOrLegal (s t : State) : Prop := StatusKept s t ∨ (s.isUser = false ∧ t.ModeOk)

theorem isUser_of_spsr? {s : State} {k : Fin 5} (h : s.spsr? = some k) : s.isUser = false := by
  rw [← Bool.not_eq_true]
  intro hu
  rw [spsr?_of_isUser hu] at h
  cases h

/-- A data-processing instruction writes them only where it restores the CPSR. -/
theorem dataProc_status {s t : State} {o : Result (Word × Bool)} {alu : Word × Bool → AluResult} {setf : Bool} {rd : Reg}
    (h : s.dataProc o alu setf rd = .ok t) : StatusKeptOrLegal s t := by
  by_cases hr : setf = true ∧ rd = 15
  · obtain ⟨rfl, rfl⟩ := hr
    obtain ⟨v, _, h⟩ := bind_ok.mp h
    obtain ⟨u, hu, h⟩ := bind_ok.mp (h : (s.advance.restoreCpsr >>= fun u => u.writePcAfterRestore (alu v).value) = .ok t)
    obtain ⟨k, hk, rfl, hm⟩ := restoreCpsr_ok hu
    have hmode : t.mode? = _ := (Frame.afterRestore (b := .usr) h).mode? (by decide)
    exact .inr ⟨isUser_of_spsr? hk, by rw [State.ModeOk, hmode]; exact hm⟩
  · refine .inl ((dataProc_frame (.inl rfl) h).1.statusKept ?_)
    cases setf
    · simp [dpMask]
    · simp [dpMask, show ¬ rd = 15 from fun e => hr ⟨rfl, e⟩]

theorem msrCpsr_status {s t : State} {mask : BitVec 4} {operand : Result Word} (h : s.msrCpsr mask operand = .ok t) :
    StatusKeptOrLegal s t := by
  obtain ⟨_, _, _, hm, hu, _⟩ := msrCpsr_frame h
  cases hs : s.isUser
  · exact .inr ⟨hs, hm⟩
  · exact .inl ((hu hs).statusKept (by decide))

theorem loadMultipleRestore_status {s t : State} {k : BlockMode} {w : Bool} {rn : Reg} {list : BitVec 16}
    (h : s.loadMultipleRestore k w rn list = .ok t) : StatusKeptOrLegal s t := by
  obtain ⟨hs, _, _, hm⟩ := loadMultipleRestore_frame h
  obtain ⟨j, hj⟩ := Option.isSome_iff_exists.mp hs
  exact .inr ⟨isUser_of_spsr? hj, hm⟩

theorem armExec_status {c : Cond} {effect : State → Result State} {s t : State} (h : armExec c effect s = .next t)
    (he : effect s = .ok t → StatusKeptOrLegal s t) : StatusKeptOrLegal s t := by
  rcases armExec_next h with ⟨_, rfl⟩ | ⟨_, h⟩
  · exact .inl (.of_cpsr rfl)
  · exact he h

/-- Beside the restores and MSR, no instruction may write the bits. -/
theorem exec_status {i : Instr} {s t : State} (h : exec i s = .next t) : StatusKeptOrLegal s t := by
  have hmask := StatusKept.of_statusMask h
  unfold exec at h
  cases i with
  | andImm | andRsi | andRsr | eorImm | eorRsi | eorRsr | subImm | subRsi | subRsr | rsbImm | rsbRsi | rsbRsr | addImm | addRsi
  | addRsr | adcImm | adcRsi | adcRsr | sbcImm | sbcRsi | sbcRsr | rscImm | rscRsi | rscRsr | orrImm | orrRsi | orrRsr | movImm
  | movRsi | movRsr | bicImm | bicRsi | bicRsr | mvnImm | mvnRsi | mvnRsr => exact armExec_status h dataProc_status
  | msrRegCpsr | msrImmCpsr => exact armExec_status h msrCpsr_status
  | ldmiaRst | ldmibRst | ldmdaRst | ldmdbRst => exact armExec_status h loadMultipleRestore_status
  | mul _ setf | mla _ setf | umull _ setf | umlal _ setf | smull _ setf | smlal _ setf =>
    exact .inl (hmask (by cases setf <;> simp [statusMask, flagMask]))
  | _ => exact .inl (hmask (by simp [statusMask]))

/-! ### A step, by its fetch and its decoding (40_core_condition_shifter.md R140, R141) -/

/-- A step that answers a next state has fetched code, and that is the instruction decoded or the advance of an UNDEFINED one. -/
theorem step_next {s t : State} (h : step s = .next t) :
    ∃ code u, s.fetch = .ok (code, u) ∧ ((∃ i, decode code = .ok i ∧ exec i u = .next t) ∨ t = u.advance) := by
  unfold step at h
  split at h
  · cases h
  · split at h
    · cases h
    · next code u hf =>
      split at h
      · next i hi => exact ⟨code, u, hf, .inl ⟨i, hi, h⟩⟩
      · cases h
        exact ⟨code, u, hf, .inr rfl⟩

theorem StatusKept.trans {s t u : State} (h₁ : StatusKept s t) (h₂ : StatusKept t u) : StatusKept s u :=
  Eq.trans h₂ h₁

theorem StatusKept.isUser {s t : State} (h : StatusKept s t) : t.isUser = s.isUser := by
  rw [State.isUser, State.isUser, h.mode?]

/-- User mode has no SPSR for MSR to write. -/
theorem exec_spsr_of_isUser {i : Instr} {s t : State} (hu : s.isUser = true) (h : exec i s = .next t) : t.spsr = s.spsr := by
  cases exec_changes h with
  | frame hf => exact hf.spsr
  | spsr k _ _ hk _ => rw [spsr?_of_isUser hu] at hk; cases hk
  | halt _ ht => rw [ht]; rfl

/-- Settles O58: the fetch leaves the CPSR and the SPSRs, and no instruction of User mode writes a bit below the f byte but T. -/
theorem userModeIsNeverLeft : Obligations.UserModeIsNeverLeft := by
  intro s t hu h
  obtain ⟨code, u, hf, hx⟩ := step_next h
  have hread := (fetch_frame hf).1.bus
  have hsu : StatusKept s u := .of_cpsr hread.cpsr
  have huu : u.isUser = true := hsu.isUser.trans hu
  have hut : StatusKept u t ∧ t.spsr = u.spsr := by
    rcases hx with ⟨i, _, hx⟩ | rfl
    · refine ⟨(exec_status hx).resolve_right fun hp => ?_, exec_spsr_of_isUser huu hx⟩
      rw [hp.1] at huu
      cases huu
    · exact ⟨.of_cpsr rfl, rfl⟩
  have hst := hsu.trans hut.1
  exact ⟨hst.isUser.trans hu, hut.2.trans hread.spsr, hst⟩

/-! ### Registers, SPSRs and `halted` -/

/-- Settles O51: the frame names the registers; MSR to an SPSR and the halt write none. -/
theorem frameRegisters : Obligations.FrameRegisters := by
  intro i s t h p hp
  cases exec_changes h with
  | frame hf => exact hf.regs p hp
  | spsr k v _ _ ht => rw [ht]; rfl
  | halt _ ht => rw [ht]; rfl

/-- Settles O56: only MSR to an SPSR writes one, the current mode's, and only the halt of a SWI writes `halted`. -/
theorem frameSpsrAndHalted : Obligations.FrameSpsrAndHalted := by
  intro i s t h
  cases exec_changes h with
  | frame hf => exact ⟨.inl hf.spsr, fun k _ => by rw [hf.spsr], .inl hf.halted⟩
  | spsr k v hi hk ht =>
    subst ht
    refine ⟨.inr hi, fun j hj => ?_, .inl rfl⟩
    have hne : k.val ≠ j.val := fun e => hj (hk.trans (congrArg some (Fin.ext e)))
    exact Vector.getElem_set_ne k.isLt j.isLt hne
  | halt hi ht =>
    subst ht
    exact ⟨.inl rfl, fun _ _ => rfl, .inr ⟨rfl, hi⟩⟩

end Sys2Proof.Machine
end

section
/-! Decoding undoes encoding (30_encoding.md R133): the row that builds an instruction back from its encoding is the only row that accepts
it, so it is the row that the decoder finds. -/
namespace Sys2Proof

open Sys2Proof.Laws.EncodedRow in
/-- The row of every instruction, constructor by constructor. -/
theorem encodedRow (i : Instr) : Statement i :=
  i.rec (motive := Statement)
    andImm andRsi andRsr eorImm eorRsi eorRsr subImm subRsi subRsr rsbImm rsbRsi rsbRsr addImm addRsi addRsr adcImm adcRsi adcRsr
    sbcImm sbcRsi sbcRsr rscImm rscRsi rscRsr tstImm tstRsi tstRsr teqImm teqRsi teqRsr cmpImm cmpRsi cmpRsr cmnImm cmnRsi cmnRsr
    orrImm orrRsi orrRsr movImm movRsi movRsr bicImm bicRsi bicRsr mvnImm mvnRsi mvnRsr b bl bx blxReg mul mla umull umlal smull
    smlal umaal smlaxy smlawy smulwy smlalxy smulxy mrsCpsr mrsSpsr msrRegCpsr msrRegSpsr msrImmCpsr msrImmSpsr swp swpb ldrImmPre
    ldrRegPre ldrImmPost ldrRegPost ldrtImm ldrtReg strImmPre strRegPre strImmPost strRegPost strtImm strtReg ldrbImmPre
    ldrbRegPre ldrbImmPost ldrbRegPost ldrbtImm ldrbtReg strbImmPre strbRegPre strbImmPost strbRegPost strbtImm strbtReg strhImm
    strhReg ldrhImm ldrhReg ldrsbImm ldrsbReg ldrshImm ldrshReg stmia stmib stmda stmdb ldmia ldmib ldmda ldmdb stmiaUsr stmibUsr
    stmdaUsr stmdbUsr ldmiaRst ldmibRst ldmdaRst ldmdbRst swi lslImmT lsrImmT asrImmT addRegT subRegT addImm3T subImm3T movImmT
    cmpImmT addImm8T subImm8T andT eorT lslRegT lsrRegT asrRegT adcT sbcT rorT tstT negT cmpRegT cmnT orrT mulT bicT mvnT addHiT
    cmpHiT movHiT bxT bxH1T ldrPcT strRegT strbRegT ldrRegT ldrbRegT strhRegT ldsbRegT ldrhRegT ldshRegT strImmT ldrImmT strbImmT
    ldrbImmT strhImmT ldrhImmT strSpT ldrSpT addPcT addSpT addSpimmT subSpimmT pushT popT stmiaT ldmiaT beqT bneT bcsT bccT bmiT
    bplT bvsT bvcT bhiT blsT bgeT bltT bgtT bleT swiT bT blHiT blLoT

theorem Row.Apart.symm {w : Nat} {r q : Row w} (h : r.Apart q) : q.Apart r := fun e =>
  h (by rw [BitVec.and_comm r.mask, e])

theorem mem_and_accepts_of_rowOf {w : Nat} {rows : List (Row w)} {r : Row w} {v : BitVec w} (h : rowOf rows v = some r) :
    r ∈ rows ∧ r.accepts v = true := by
  unfold rowOf at h
  exact ⟨List.mem_of_find?_eq_some h, List.find?_some (p := fun q : Row w => q.accepts v) h⟩

/-- Where rows are apart, a row that accepts a word is the one found for it. -/
theorem rowOf_of_accepts {w : Nat} {rows : List (Row w)} (hp : rows.Pairwise Row.Apart) {r : Row w} (hr : r ∈ rows) {v : BitVec w}
    (ha : r.accepts v = true) : rowOf rows v = some r := by
  obtain ⟨q, hq⟩ : ∃ q, rowOf rows v = some q := Option.ne_none_iff_exists'.mp fun hn =>
    Bool.noConfusion ((rowOf_eq_none_iff.mp hn r hr).symm.trans ha)
  rw [hq]
  refine congrArg some (Classical.byContradiction fun hne => ?_)
  have : Std.Symm (Row.Apart (w := w)) := ⟨fun _ _ => Row.Apart.symm⟩
  obtain ⟨hqr, hqa⟩ := mem_and_accepts_of_rowOf hq
  exact (hp.forall hqr hr hne).not_accepts_both v ⟨hqa, ha⟩

/-- Settles O4: the encoding's row is found for it, and builds the instruction. -/
theorem decodeUndoesEncode : Obligations.DecodeUndoesEncode := by
  intro i
  have hrow := encodedRow i
  unfold Laws.EncodedRow.Statement at hrow
  split at hrow
  case h_1 v he =>
    obtain ⟨r, hr, ha, hb⟩ := hrow
    rw [he, decode, decodeArm, rowOf_of_accepts armRows_pairwise_apart hr ha, ← hb]
  case h_2 v he =>
    obtain ⟨r, hr, ha, hb⟩ := hrow
    rw [he, decode, decodeThumb, rowOf_of_accepts thumbRows_pairwise_apart hr ha, ← hb]

end Sys2Proof
end

section
/-! The invariant of the machine (10_state.md section 4; 20_memory.md R62, R68): every step keeps it, and leaves a program counter that is
aligned for the instruction set of the state it answers. -/
namespace Sys2Proof.Machine
open Sys2Proof

/-! ### The invariant: parameters, registry, memory and mode -/

/-- What the invariant says of the state after, from what changes. -/
theorem State.Inv.of_kept {s t : State} (hi : s.Inv) (hp : s.SamePlatform t) (hm : s.MemOk → t.MemOk) (hmode : t.ModeOk) : t.Inv := by
  obtain ⟨hcfg, hmem, _, hch⟩ := hi
  refine ⟨by rw [hp.1]; exact hcfg, hm hmem, hmode, ?_⟩
  rw [State.ChannelsOk, hp.2]
  exact hch

theorem exec_platform {i : Instr} {s t : State} (h : exec i s = .next t) : s.SamePlatform t ∧ (s.MemOk → t.MemOk) := by
  cases exec_changes h with
  | frame hf => exact ⟨⟨hf.cfg, hf.channels⟩, hf.memOk⟩
  | spsr _ _ _ _ ht => rw [ht]; exact ⟨⟨rfl, rfl⟩, id⟩
  | halt _ ht => rw [ht]; exact ⟨⟨rfl, rfl⟩, id⟩

theorem exec_modeOk {i : Instr} {s t : State} (hm : s.ModeOk) (h : exec i s = .next t) : t.ModeOk := by
  rcases exec_status h with hk | ⟨_, hlegal⟩
  · rw [State.ModeOk, hk.mode?]; exact hm
  · exact hlegal

theorem step_inv {s t : State} (hi : s.Inv) (h : step s = .next t) : t.Inv ∧ s.SamePlatform t := by
  obtain ⟨code, u, hf, hx⟩ := step_next h
  have hread := (fetch_frame hf).1.bus
  have hu : u.Inv := hi.of_kept ⟨hread.cfg, hread.channels⟩ hread.memOk (by
    rw [State.ModeOk, State.mode?_of_cpsr hread.cpsr]; exact hi.2.2.1)
  have ht : t.Inv ∧ u.SamePlatform t := by
    rcases hx with ⟨i, _, hx⟩ | rfl
    · obtain ⟨hp, hm⟩ := exec_platform hx
      exact ⟨hu.of_kept hp hm (exec_modeOk hu.2.2.1 hx), hp⟩
    · exact ⟨hu, rfl, rfl⟩
  exact ⟨ht.1, ht.2.1.trans hread.cfg, ht.2.2.trans hread.channels⟩

/-! ### Program-counter writes leave an aligned program counter (40_core_condition_shifter.md R165 to R169) -/

theorem pcAligned_of_mod_four {t : State} (h : t.pc.toNat % 4 = 0) : t.PcAligned := by
  unfold State.PcAligned
  split <;> omega

theorem getLsbD_zero_eq_false (v : Word) : v.getLsbD 0 = false ↔ v.toNat % 2 = 0 := Claims.misaligned_eq_false_iff .half v

theorem and_not_one_mod_two (v : Word) : (v &&& ~~~1#32).toNat % 2 = 0 := by
  rw [← getLsbD_zero_eq_false]
  simp

theorem pcAligned_of_thumb {t : State} (hT : t.thumb = true) (h : t.pc.toNat % 2 = 0) : t.PcAligned := by
  rw [State.PcAligned, if_pos hT]
  exact h

theorem writePcArm_pcAligned {s t : State} {v : Word} (h : s.writePcArm v = .ok t) : t.PcAligned := by
  obtain ⟨rfl, hv⟩ := writePcArm_ok h
  exact pcAligned_of_mod_four ((get_two_eq_zero v).mp hv)

theorem writePcThumb_pcAligned {s : State} (hT : s.thumb = true) (v : Word) : (s.writePcThumb v).PcAligned :=
  pcAligned_of_thumb hT (and_not_one_mod_two v)

theorem writePcInterwork_pcAligned {s t : State} {v : Word} (h : s.writePcInterwork v = .ok t) : t.PcAligned := by
  rcases writePcInterwork_ok h with ⟨_, rfl⟩ | ⟨hv, rfl⟩
  · exact pcAligned_of_thumb ((setBit_getLsbD _ 5 5 true (by decide)).trans (if_pos rfl)) (and_not_one_mod_two v)
  · exact pcAligned_of_mod_four ((get_two_eq_zero v).mp hv)

theorem writePcAfterRestore_pcAligned {s t : State} {v : Word} (h : s.writePcAfterRestore v = .ok t) : t.PcAligned := by
  rcases writePcAfterRestore_ok h with ⟨hT, rfl⟩ | ⟨_, hv, rfl⟩
  · exact pcAligned_of_thumb hT (and_not_one_mod_two v)
  · exact pcAligned_of_mod_four ((get_two_eq_zero v).mp hv)

theorem writePcPop_pcAligned {s t : State} {v : Word} (hT : s.thumb = true) (h : s.writePcPop v = .ok t) : t.PcAligned := by
  obtain ⟨_, rfl⟩ := writePcPop_ok h
  exact pcAligned_of_thumb hT (and_not_one_mod_two v)

/-! ### The program counter after each meaning -/

/-- The program counter advanced, or it was written, aligned for the state after. -/
def PcSettled (s t : State) : Prop := t.pc = s.advance.pc ∨ t.PcAligned

theorem armExec_pcSettled {c : Cond} {effect : State → Result State} {s t : State} (h : armExec c effect s = .next t)
    (he : effect s = .ok t → PcSettled s t) : PcSettled s t := by
  rcases armExec_next h with ⟨_, rfl⟩ | ⟨_, h⟩
  · exact .inl rfl
  · exact he h

/-- A meaning that answers a state it names, after a check. -/
theorem checked_pc {bad : Bool} {f : Fault} {t u : State} {p : Word} (h : (faultIf bad f >>= fun _ => .ok u) = .ok t)
    (hu : u.pc = p) : t.pc = p := by
  obtain ⟨_, _, h⟩ := bind_ok.mp h
  cases h
  exact hu

theorem ok_pc {t u : State} {p : Word} (h : (.ok u : Result State) = .ok t) (hu : u.pc = p) : t.pc = p := by
  cases h
  exact hu

theorem dataProc_pcSettled {s t : State} {o : Result (Word × Bool)} {alu : Word × Bool → AluResult} {setf : Bool} {rd : Reg}
    (h : s.dataProc o alu setf rd = .ok t) : PcSettled s t := by
  obtain ⟨v, _, h⟩ := bind_ok.mp h
  unfold State.writeDp at h
  split at h
  · split at h
    · obtain ⟨u, _, h⟩ := bind_ok.mp h
      exact .inr (writePcAfterRestore_pcAligned h)
    · exact .inr (writePcArm_pcAligned h)
  · exact .inl (ok_pc h (by split <;> simp))

theorem compare_pc {s t : State} {o : Result (Word × Bool)} {alu : Word × Bool → AluResult} (h : s.compare o alu = .ok t) :
    t.pc = s.advance.pc := by
  obtain ⟨v, _, h⟩ := bind_ok.mp h
  exact ok_pc h (by simp)

theorem readStatus_pc_kept {s t : State} {rd : Reg} {read : Result Word} (h : s.readStatus rd read = .ok t) :
    t.pc = s.advance.pc := by
  obtain ⟨_, _, h⟩ := bind_ok.mp h
  obtain ⟨v, _, h⟩ := bind_ok.mp h
  exact ok_pc h (by simp)

theorem msrSpsr_pc {s t : State} {mask : BitVec 4} {operand : Result Word} (h : s.msrSpsr mask operand = .ok t) :
    t.pc = s.advance.pc := by
  obtain ⟨_, _, _, _, rfl⟩ := msrSpsr_ok h
  rfl

theorem loadWord_pcSettled {s t : State} {address : Result (Word × Option Word)} {rn rd : Reg}
    (h : s.loadWord address rn rd = .ok t) : PcSettled s t := by
  obtain ⟨⟨a, wb⟩, _, h⟩ := bind_ok.mp h
  obtain ⟨⟨v, u⟩, hr, h⟩ := bind_ok.mp h
  dsimp only at h
  split at h
  · exact .inr (writePcArm_pcAligned h)
  · exact .inl (ok_pc h (by simp [(dataRead_frame hr).bus.pc]))

theorem storeWord_pc {s t : State} {address : Result (Word × Option Word)} {rn rd : Reg} (h : s.storeWord address rn rd = .ok t) :
    t.pc = s.advance.pc := by
  obtain ⟨_, _, _, _, hw, rfl⟩ := storeWord_ok h
  simp [(dataWrite_frame hw).pc]

theorem loadNarrow_pc {s t : State} {tag : Tag} {k : LoadKind} {address : Result (Word × Option Word)} {rn rd : Reg}
    (h : s.loadNarrow tag k address rn rd = .ok t) : t.pc = s.advance.pc := by
  obtain ⟨_, _, h⟩ := bind_ok.mp h
  obtain ⟨⟨a, wb⟩, _, h⟩ := bind_ok.mp h
  obtain ⟨⟨v, u⟩, hr, h⟩ := bind_ok.mp h
  exact ok_pc h (by simp [(dataRead_frame hr).bus.pc])

theorem storeNarrow_pc {s t : State} {tag : Tag} {w : Width} {address : Result (Word × Option Word)} {rn rd : Reg}
    (h : s.storeNarrow tag w address rn rd = .ok t) : t.pc = s.advance.pc := by
  obtain ⟨_, _, _, _, _, hw, rfl⟩ := storeNarrow_ok h
  simp [(dataWrite_frame hw).pc]

theorem swap_pc {s t : State} {k : LoadKind} {rn rd rm : Reg} (h : s.swap k rn rd rm = .ok t) : t.pc = s.advance.pc := by
  obtain ⟨_, old, u, v, hr, hw, rfl⟩ := swap_ok h
  simp [(dataWrite_frame hw).pc, (dataRead_frame hr).bus.pc]

theorem storeMultiple_pc {s t : State} {k : BlockMode} {w : Bool} {rn : Reg} {list : BitVec 16}
    (h : s.storeMultiple k w rn list = .ok t) : t.pc = s.advance.pc := by
  obtain ⟨_, _, u, _, _, hw, rfl⟩ := storeMultiple_ok h
  split <;> simp [(storeBlock_frame hw).pc]

theorem storeMultipleUser_pc {s t : State} {k : BlockMode} {w : Bool} {rn : Reg} {list : BitVec 16}
    (h : s.storeMultipleUser k w rn list = .ok t) : t.pc = s.advance.pc := by
  obtain ⟨_, _, _, _, _, hw⟩ := storeMultipleUser_ok h
  exact (storeBlock_frame hw).pc

theorem loadMultiple_pcSettled {s t : State} {k : BlockMode} {w : Bool} {rn : Reg} {list : BitVec 16}
    (h : s.loadMultiple k w rn list = .ok t) : PcSettled s t := by
  obtain ⟨⟨u, target⟩, hl, h⟩ := bind_ok.mp h
  obtain ⟨_, _, _, _, hpc, _⟩ := loadRegs_frame hl
  cases target with
  | some v => exact .inr (writePcArm_pcAligned h)
  | none => exact .inl (ok_pc h hpc)

theorem loadMultipleRestore_pcSettled {s t : State} {k : BlockMode} {w : Bool} {rn : Reg} {list : BitVec 16}
    (h : s.loadMultipleRestore k w rn list = .ok t) : PcSettled s t := by
  obtain ⟨_, _, h⟩ := bind_ok.mp h
  obtain ⟨⟨u, target⟩, hl, h⟩ := bind_ok.mp h
  obtain ⟨_, _, _, _, hpc, _⟩ := loadRegs_frame hl
  obtain ⟨q, hq, h⟩ := bind_ok.mp h
  obtain ⟨_, _, rfl, _⟩ := restoreCpsr_ok hq
  cases target with
  | some v => exact .inr (writePcAfterRestore_pcAligned h)
  | none => exact .inl (ok_pc h hpc)

theorem service_pc {s t : State} {svc : Word} (h : s.service svc = .ok t) : t.pc = s.advance.pc := by
  unfold State.service at h
  split at h
  · exact ok_pc h rfl
  split at h
  · exact checked_pc h (by simp)
  split at h
  · exact ok_pc h (by simp)
  split at h
  · exact ok_pc h (by simp)
  split at h
  · exact ok_pc h (by simp)
  split at h
  · exact (accesses_frame h).pc
  · exact ok_pc h rfl

theorem branchLinkExchange_pcAligned {s t : State} {rm : Reg} (h : s.branchLinkExchange rm = .ok t) : t.PcAligned := by
  obtain ⟨_, _, h⟩ := bind_ok.mp h
  exact writePcInterwork_pcAligned h

/-! ### The Thumb meanings -/

theorem writeHi_pcSettled {s t : State} {h₁ h₂ : Bool} {d : Reg} {v : Word} (hT : s.thumb = true)
    (h : s.writeHi h₁ h₂ d v = .ok t) : PcSettled s t := by
  obtain ⟨_, _, h⟩ := bind_ok.mp h
  cases h
  split
  · exact .inr (writePcThumb_pcAligned hT v)
  · exact .inl (State.writeReg_pc _ _ _)

theorem loadT_pc {s t : State} {k : LoadKind} {a : Word} {rd : LowReg} (h : s.loadT k a rd = .ok t) : t.pc = s.advance.pc := by
  obtain ⟨⟨v, u⟩, hr, h⟩ := bind_ok.mp h
  exact ok_pc h (by simp [(dataRead_frame hr).bus.pc])

theorem push_pc {s t : State} {regs : List Reg} (h : s.push regs = .ok t) : t.pc = s.advance.pc := by
  obtain ⟨_, u, hw, rfl⟩ := push_ok h
  simp [(storeBlock_frame hw).pc]

theorem pop_pcSettled {s t : State} {regs : List Reg} {r : Bool} (hT : s.thumb = true) (h : s.pop regs r = .ok t) :
    PcSettled s t := by
  obtain ⟨_, _, h⟩ := bind_ok.mp h
  obtain ⟨⟨vs, u⟩, hr, h⟩ := bind_ok.mp h
  have hbus := (loadBlock_frame hr).1.bus
  dsimp only at h
  split at h
  · exact .inr (writePcPop_pcAligned ((State.thumb_of_cpsr (by simp [hbus.cpsr])).trans hT) h)
  · exact .inl (ok_pc h (by simp [hbus.pc]))

theorem storeMultipleT_pc {s t : State} {rb : Reg} {regs : List Reg} (h : s.storeMultipleT rb regs = .ok t) :
    t.pc = s.advance.pc := by
  obtain ⟨_, _, u, hw, rfl⟩ := storeMultipleT_ok h
  simp [(storeBlock_frame hw).pc]

theorem loadMultipleT_pc {s t : State} {rb : Reg} {regs : List Reg} (h : s.loadMultipleT rb regs = .ok t) :
    t.pc = s.advance.pc := by
  obtain ⟨_, _, h⟩ := bind_ok.mp h
  obtain ⟨_, _, h⟩ := bind_ok.mp h
  obtain ⟨⟨vs, u⟩, hr, h⟩ := bind_ok.mp h
  exact ok_pc h (by simp [(loadBlock_frame hr).1.bus.pc])

theorem branchIfT_pcSettled {s t : State} {c : Cond} {n : BitVec 8} (hT : s.thumb = true) (h : s.branchIfT c n = .ok t) :
    PcSettled s t := by
  cases h
  split
  · exact .inr (writePcThumb_pcAligned hT _)
  · exact .inl rfl

/-! ### Every instruction -/

/-- Every ARM instruction settles the program counter, in a state of either instruction set. -/
theorem exec_pcSettled_of_arm {i : Instr} {s t : State} (hc : i.cond? ≠ none) (h : exec i s = .next t) : PcSettled s t := by
  unfold exec at h
  cases i with
  -- 42_arm_data_processing.md
  | andImm | andRsi | andRsr | eorImm | eorRsi | eorRsr | subImm | subRsi | subRsr | rsbImm | rsbRsi | rsbRsr | addImm | addRsi
  | addRsr | adcImm | adcRsi | adcRsr | sbcImm | sbcRsi | sbcRsr | rscImm | rscRsi | rscRsr | orrImm | orrRsi | orrRsr | movImm
  | movRsi | movRsr | bicImm | bicRsi | bicRsr | mvnImm | mvnRsi | mvnRsr => exact armExec_pcSettled h dataProc_pcSettled
  | tstImm | tstRsi | tstRsr | teqImm | teqRsi | teqRsr | cmpImm | cmpRsi | cmpRsr | cmnImm | cmnRsi | cmnRsr =>
    exact armExec_pcSettled h fun h => .inl (compare_pc h)
  -- 41_arm_branch.md
  | b | bl => exact armExec_pcSettled h fun h => .inr (writePcArm_pcAligned h)
  | bx => exact armExec_pcSettled h fun h => .inr (writePcInterwork_pcAligned h)
  | blxReg => exact armExec_pcSettled h fun h => .inr (branchLinkExchange_pcAligned h)
  -- 43_arm_multiply.md
  | mul | mla | umull | umlal | smull | smlal | smlawy =>
    exact armExec_pcSettled h fun h => .inl (checked_pc h (by split <;> simp))
  | umaal | smlalxy | smulxy => exact armExec_pcSettled h fun h => .inl (checked_pc h (by simp))
  | smlaxy | smulwy => exact armExec_pcSettled h fun h => absurd h refusedEncoding_ne_ok
  -- 44_arm_psr_transfer.md
  | mrsCpsr | mrsSpsr => exact armExec_pcSettled h fun h => .inl (readStatus_pc_kept h)
  | msrRegCpsr | msrImmCpsr => exact armExec_pcSettled h fun h => have ⟨_, _, _, _, _, hpc⟩ := msrCpsr_frame h; .inl hpc
  | msrRegSpsr | msrImmSpsr => exact armExec_pcSettled h fun h => .inl (msrSpsr_pc h)
  -- 45_arm_load_store.md
  | swp | swpb => exact armExec_pcSettled h fun h => .inl (swap_pc h)
  | ldrImmPre | ldrRegPre | ldrImmPost | ldrRegPost | ldrtImm | ldrtReg => exact armExec_pcSettled h loadWord_pcSettled
  | strImmPre | strRegPre | strImmPost | strRegPost | strtImm | strtReg =>
    exact armExec_pcSettled h fun h => .inl (storeWord_pc h)
  | ldrbImmPre | ldrbRegPre | ldrbImmPost | ldrbRegPost | ldrbtImm | ldrbtReg | ldrhImm | ldrhReg | ldrsbImm | ldrsbReg | ldrshImm
  | ldrshReg => exact armExec_pcSettled h fun h => .inl (loadNarrow_pc h)
  | strbImmPre | strbRegPre | strbImmPost | strbRegPost | strbtImm | strbtReg | strhImm | strhReg =>
    exact armExec_pcSettled h fun h => .inl (storeNarrow_pc h)
  -- 46_arm_block_transfer.md
  | stmia | stmib | stmda | stmdb => exact armExec_pcSettled h fun h => .inl (storeMultiple_pc h)
  | ldmia | ldmib | ldmda | ldmdb => exact armExec_pcSettled h loadMultiple_pcSettled
  | stmiaUsr | stmibUsr | stmdaUsr | stmdbUsr => exact armExec_pcSettled h fun h => .inl (storeMultipleUser_pc h)
  | ldmiaRst | ldmibRst | ldmdaRst | ldmdbRst => exact armExec_pcSettled h loadMultipleRestore_pcSettled
  -- 47_swi_and_undefined.md
  | swi => exact armExec_pcSettled h fun h => .inl (service_pc h)
  | _ => exact absurd rfl hc

/-- Every Thumb instruction does in Thumb state, where its program-counter writes leave T. -/
theorem exec_pcSettled_of_thumb {i : Instr} {s t : State} (hc : i.cond? = none) (hT : s.thumb = true) (h : exec i s = .next t) :
    PcSettled s t := by
  unfold exec at h
  cases i with
  | swiT => exact .inl (service_pc (thumbExec_next h))
  -- 48_thumb_data_ops.md
  | lslImmT | lsrImmT | asrImmT | lslRegT | lsrRegT | asrRegT | rorT | addRegT | subRegT | addImm3T | subImm3T | addImm8T | subImm8T
  | adcT | sbcT | negT | cmpImmT | cmpRegT | cmnT | movImmT | andT | eorT | orrT | bicT | mvnT | tstT | addPcT | addSpT | addSpimmT
  | subSpimmT | blHiT => exact .inl (ok_pc (thumbExec_next h) (by simp))
  | mulT | cmpHiT => exact .inl (checked_pc (thumbExec_next h) (by simp))
  | addHiT | movHiT => exact writeHi_pcSettled hT (thumbExec_next h)
  | bxT => exact .inr (writePcInterwork_pcAligned (thumbExec_next h))
  | bxH1T => exact nomatch thumbExec_next h
  -- 49_thumb_load_store_branch.md
  | ldrPcT | ldrRegT | ldrbRegT | ldsbRegT | ldrhRegT | ldshRegT | ldrImmT | ldrbImmT | ldrhImmT | ldrSpT =>
    exact .inl (loadT_pc (thumbExec_next h))
  | strRegT | strbRegT | strhRegT | strImmT | strbImmT | strhImmT | strSpT => exact .inl (dataWrite_frame (thumbExec_next h)).pc
  | pushT => exact .inl (push_pc (thumbExec_next h))
  | popT => exact pop_pcSettled hT (thumbExec_next h)
  | stmiaT => exact .inl (storeMultipleT_pc (thumbExec_next h))
  | ldmiaT => exact .inl (loadMultipleT_pc (thumbExec_next h))
  | beqT | bneT | bcsT | bccT | bmiT | bplT | bvsT | bvcT | bhiT | blsT | bgeT | bltT | bgtT | bleT =>
    exact branchIfT_pcSettled hT (thumbExec_next h)
  | bT => cases thumbExec_next h; exact .inr (writePcThumb_pcAligned hT _)
  | blLoT =>
    cases thumbExec_next h
    refine .inr (writePcThumb_pcAligned ?_ _)
    rw [State.writeReg_thumb]
    exact hT
  | _ => exact absurd hc (Option.some_ne_none _)

/-- Of the Thumb instructions only BX may write T. -/
theorem exec_thumb_of_thumb {i : Instr} {s t : State} (hc : i.cond? = none) (h : exec i s = .next t) :
    t.thumb = s.thumb ∨ ∃ h₂ rs, i = .bxT h₂ rs := by
  have hkept (hm : statusMask i &&& 0x20#32 = 0) : t.thumb = s.thumb := by
    have hbit := congrArg (·.getLsbD 5) (and_eq_of_and_not_eq (frameStatus i s t h) hm)
    simpa [State.thumb] using hbit
  cases i with
  | bxT h₂ rs => exact .inr ⟨h₂, rs, rfl⟩
  | lslImmT | lsrImmT | asrImmT | lslRegT | lsrRegT | asrRegT | rorT => exact .inl (hkept (by decide : 0xE0000000#32 &&& 0x20#32 = 0))
  | addRegT | subRegT | addImm3T | subImm3T | addImm8T | subImm8T | adcT | sbcT | negT | cmpImmT | cmpRegT | cmnT | cmpHiT =>
    exact .inl (hkept (by decide : 0xF0000000#32 &&& 0x20#32 = 0))
  | movImmT | andT | eorT | orrT | bicT | mvnT | tstT | mulT => exact .inl (hkept (by decide : 0xC0000000#32 &&& 0x20#32 = 0))
  | addHiT | movHiT | bxH1T | ldrPcT | strRegT | strbRegT | ldrRegT | ldrbRegT | strhRegT | ldsbRegT | ldrhRegT | ldshRegT | strImmT
  | ldrImmT | strbImmT | ldrbImmT | strhImmT | ldrhImmT | strSpT | ldrSpT | addPcT | addSpT | addSpimmT | subSpimmT | pushT | popT
  | stmiaT | ldmiaT | beqT | bneT | bcsT | bccT | bmiT | bplT | bvsT | bvcT | bhiT | blsT | bgeT | bltT | bgtT | bleT | swiT | bT
  | blHiT | blLoT => exact .inl (hkept (by decide : 0#32 &&& 0x20#32 = 0))
  | _ => exact absurd hc (Option.some_ne_none _)

/-! ### The step: fetch, decode, execute -/

/-- A fetch answers code only at an aligned program counter (20_memory.md R68). -/
theorem fetch_pcAligned {s t : State} {code : Code} (h : s.fetch = .ok (code, t)) : s.PcAligned := by
  unfold State.fetch at h
  unfold State.PcAligned
  split at h <;> rename_i hT
  · obtain ⟨_, hbad, _⟩ := bind_ok.mp h
    rw [if_pos hT, ← getLsbD_zero_eq_false]
    exact faultIf_ok.mp hbad
  · obtain ⟨_, hbad, _⟩ := bind_ok.mp h
    rw [if_neg hT, ← get_two_eq_zero]
    simpa using faultIf_ok.mp hbad

theorem advance_pcAligned {s : State} (h : s.PcAligned) : s.advance.PcAligned := by
  unfold State.PcAligned at h ⊢
  rw [State.advance_thumb, State.advance_pc, State.width]
  split at h <;> rename_i hT
  · rw [if_pos hT, if_pos hT]; bv_omega
  · rw [if_neg hT, if_neg hT]; bv_omega

theorem thumbRows_cond : ∀ r ∈ thumbRows, ∀ v, (r.build v).cond? = none := by
  refine List.forall_iff_forall_mem.mp ?_
  simp only [thumbRows, List.forall_append]
  repeat' constructor
  all_goals exact fun _ => rfl

/-- A decoded Thumb halfword has no condition. -/
theorem decodeThumb_cond {h : Half} {i : Instr} (hd : decodeThumb h = .ok i) : i.cond? = none := by
  unfold decodeThumb at hd
  split at hd
  · next r hr =>
    cases hd
    exact thumbRows_cond r (mem_and_accepts_of_rowOf hr).1 h
  · cases hd

/-- An ARM instruction of an aligned ARM state. -/
theorem exec_pcAligned_of_arm {i : Instr} {s t : State} (hc : i.cond? ≠ none) (hT : s.thumb = false) (ha : s.PcAligned)
    (h : exec i s = .next t) : t.PcAligned := by
  refine (exec_pcSettled_of_arm hc h).elim (fun hpc => pcAligned_of_mod_four ?_) id
  have hadv := advance_pcAligned ha
  rw [hpc]
  simpa [State.PcAligned, hT] using hadv

/-- A Thumb instruction of an aligned Thumb state. -/
theorem exec_pcAligned_of_thumb {i : Instr} {s t : State} (hc : i.cond? = none) (hT : s.thumb = true) (ha : s.PcAligned)
    (h : exec i s = .next t) : t.PcAligned := by
  rcases exec_thumb_of_thumb hc h with ht | ⟨h₂, rs, rfl⟩
  · refine (exec_pcSettled_of_thumb hc hT h).elim (fun hpc => pcAligned_of_thumb (ht.trans hT) ?_) id
    have hadv := advance_pcAligned ha
    rw [hpc]
    simpa [State.PcAligned, hT] using hadv
  · rw [Claims.exec_bxT] at h
    exact writePcInterwork_pcAligned (finish_next.mp h)

theorem step_pcAligned {s t : State} (h : step s = .next t) : t.PcAligned := by
  obtain ⟨code, u, hf, hx⟩ := step_next h
  obtain ⟨hread, hcode⟩ := fetch_frame hf
  have hTu : u.thumb = s.thumb := State.thumb_of_cpsr hread.bus.cpsr
  have hu : u.PcAligned := by
    rw [State.PcAligned, hTu, hread.bus.pc]
    exact fetch_pcAligned hf
  rcases hx with ⟨i, hd, hx⟩ | rfl
  · rcases hcode with ⟨hT, v, rfl⟩ | ⟨hT, w, rfl⟩
    · exact exec_pcAligned_of_thumb (decodeThumb_cond hd) (hTu.trans hT) hu hx
    · exact exec_pcAligned_of_arm (by rw [decodeArm_cond hd]; exact Option.some_ne_none _) (hTu.trans hT) hu hx
  · exact advance_pcAligned hu

/-- Settles O57: what the frames keep, and where the program-counter writes leave the program counter. -/
theorem stepKeepsInvariant : Obligations.StepKeepsInvariant :=
  ⟨fun _ _ => step_inv, fun _ _ => step_pcAligned⟩

end Sys2Proof.Machine
end

section
/-! Memory and the history (20_memory.md section 5; 10_state.md section 7): what makes no access keeps both, a load keeps memory, and a
block store changes only the words of its list. -/
namespace Sys2Proof.Machine
open Sys2Proof

theorem armExec_quiet {c : Cond} {effect : State → Result State} {s t : State} (h : armExec c effect s = .next t)
    (he : effect s = .ok t → Quiet s t) : Quiet s t := by
  rcases armExec_next h with ⟨_, rfl⟩ | ⟨_, h⟩
  · exact Quiet.advance s
  · exact he h

theorem armExec_mem {c : Cond} {effect : State → Result State} {s t : State} (h : armExec c effect s = .next t)
    (he : effect s = .ok t → t.mem = s.mem) : t.mem = s.mem := by
  rcases armExec_next h with ⟨_, rfl⟩ | ⟨_, h⟩
  · rfl
  · exact he h

theorem ok_quiet {s t u : State} (h : (.ok u : Result State) = .ok t) (hq : Quiet s u) : Quiet s t := by
  cases h
  exact hq

theorem writePcArm_quiet {s t : State} {v : Word} (h : s.writePcArm v = .ok t) : Quiet s t := by
  obtain ⟨rfl, _⟩ := writePcArm_ok h
  exact ⟨rfl, rfl, rfl⟩

theorem msrSpsr_quiet {s t : State} {mask : BitVec 4} {operand : Result Word} (h : s.msrSpsr mask operand = .ok t) : Quiet s t := by
  obtain ⟨_, _, _, _, rfl⟩ := msrSpsr_ok h
  exact ⟨rfl, rfl, rfl⟩

theorem writeReg_writePcThumb_quiet (s : State) (r : Reg) (v x : Word) : Quiet s ((s.advance.writeReg r v).writePcThumb x) :=
  ⟨by simp, by simp, by simp⟩

/-- An instruction of no access keeps memory, the history and the draws. -/
theorem exec_quiet {i : Instr} {s t : State} (ha : mayAccess i = false) (h : exec i s = .next t) : Quiet s t := by
  unfold exec at h
  cases i with
  -- 41_arm_branch.md, 42_arm_data_processing.md
  | andImm | andRsi | andRsr | eorImm | eorRsi | eorRsr | subImm | subRsi | subRsr | rsbImm | rsbRsi | rsbRsr | addImm | addRsi
  | addRsr | adcImm | adcRsi | adcRsr | sbcImm | sbcRsi | sbcRsr | rscImm | rscRsi | rscRsr | orrImm | orrRsi | orrRsr | movImm
  | movRsi | movRsr | bicImm | bicRsi | bicRsr | mvnImm | mvnRsi | mvnRsr =>
    exact armExec_quiet h fun h => (dataProc_frame (.inl rfl) h).2
  | tstImm | tstRsi | tstRsr | teqImm | teqRsi | teqRsr | cmpImm | cmpRsi | cmpRsr | cmnImm | cmnRsi | cmnRsr =>
    exact armExec_quiet h fun h => (compare_frame (.inl rfl) h).2
  | b => exact armExec_quiet h fun h => (Quiet.advance s).trans (writePcArm_quiet h)
  | bl => exact armExec_quiet h fun h => ((Quiet.advance s).trans (Quiet.writeReg _ _ _)).trans (writePcArm_quiet h)
  | bx => exact armExec_quiet h fun h => (Quiet.advance s).trans (Quiet.interwork h)
  | blxReg => exact armExec_quiet h fun h => (branchLinkExchange_frame h).2.2
  -- 43_arm_multiply.md
  | mul | mla => exact armExec_quiet h fun h => (multiply_frame h).2.2
  | umull | umlal => exact armExec_quiet h fun h => (multiplyLong_frame h).2.2
  | smull | smlal => exact armExec_quiet h fun h => (multiplyLongSigned_frame h).2.2
  | umaal | smlalxy => exact armExec_quiet h fun h => (multiplyLongPlain_frame h).2.2
  | smlaxy | smulwy => exact armExec_quiet h fun h => absurd h refusedEncoding_ne_ok
  | smlawy => exact armExec_quiet h fun h => (multiplyWide_frame h).2.2
  | smulxy => exact armExec_quiet h fun h => (multiplyHalf_frame h).2.2
  -- 44_arm_psr_transfer.md
  | mrsCpsr | mrsSpsr => exact armExec_quiet h fun h => have ⟨_, _, _, hq⟩ := readStatus_frame h; hq
  | msrRegCpsr | msrImmCpsr => exact armExec_quiet h fun h => (msrCpsr_frame h).2.2.1
  | msrRegSpsr | msrImmSpsr => exact armExec_quiet h msrSpsr_quiet
  -- 48_thumb_data_ops.md
  | lslImmT | lsrImmT | asrImmT | lslRegT | lsrRegT | asrRegT | rorT => exact (shiftT_frame (thumbExec_next h)).2
  | addRegT | subRegT | addImm3T | subImm3T | addImm8T | subImm8T | adcT | sbcT | negT => exact (arithT_frame (thumbExec_next h)).2
  | cmpImmT | cmpRegT | cmnT => exact (compareT_frame (thumbExec_next h)).2
  | movImmT | andT | eorT | orrT | bicT | mvnT => exact (logicT_frame (thumbExec_next h)).2
  | tstT => exact (testT_frame (thumbExec_next h)).2
  | mulT => exact (multiplyT_frame (thumbExec_next h)).2.2
  | addHiT | movHiT => exact (writeHi_frame (thumbExec_next h)).2.2
  | cmpHiT => exact (compareHi_frame (thumbExec_next h)).2.2
  | bxT => exact (Quiet.advance s).trans (Quiet.interwork (thumbExec_next h))
  | bxH1T => exact nomatch thumbExec_next h
  | addPcT | addSpT | addSpimmT | subSpimmT | blHiT => exact ok_quiet (thumbExec_next h) (advance_writeReg_frame s _ _).2
  -- 49_thumb_load_store_branch.md
  | beqT | bneT | bcsT | bccT | bmiT | bplT | bvsT | bvcT | bhiT | blsT | bgeT | bltT | bgtT | bleT =>
    exact (branchIfT_frame (thumbExec_next h)).2
  | bT => exact ok_quiet (thumbExec_next h) ⟨rfl, rfl, rfl⟩
  | blLoT => exact ok_quiet (thumbExec_next h) (writeReg_writePcThumb_quiet s 14 _ _)
  | _ => exact Bool.noConfusion (ha : true = false)

/-- A load keeps memory: its accesses read. -/
theorem exec_mem_of_load {i : Instr} {s t : State} (ha : accesses i = .load) (h : exec i s = .next t) : t.mem = s.mem := by
  unfold exec at h
  cases i with
  | ldrImmPre | ldrRegPre | ldrImmPost | ldrRegPost | ldrtImm | ldrtReg =>
    exact armExec_mem h fun h => have ⟨_, _, _, _, hm⟩ := loadWord_frame h; hm
  | ldrbImmPre | ldrbRegPre | ldrbImmPost | ldrbRegPost | ldrbtImm | ldrbtReg | ldrhImm | ldrhReg | ldrsbImm | ldrsbReg | ldrshImm
  | ldrshReg => exact armExec_mem h fun h => have ⟨_, _, _, _, _, hm⟩ := loadNarrow_frame h; hm
  | ldmia | ldmib | ldmda | ldmdb => exact armExec_mem h fun h => (loadMultiple_frame h).2
  | ldmiaRst | ldmibRst | ldmdaRst | ldmdbRst => exact armExec_mem h fun h => (loadMultipleRestore_frame h).2.2.1
  | ldrPcT | ldrRegT | ldrbRegT | ldsbRegT | ldrhRegT | ldshRegT | ldrImmT | ldrbImmT | ldrhImmT | ldrSpT =>
    exact (loadT_frame (thumbExec_next h)).2
  | popT => exact (pop_frame (thumbExec_next h)).2.2
  | ldmiaT => exact (loadMultipleT_frame (thumbExec_next h)).2.2.2
  | _ => exact Accesses.noConfusion ha

/-- What stores nothing makes no access or loads. -/
theorem mayStore_eq_false {i : Instr} (h : mayStore i = false) : mayAccess i = false ∨ accesses i = .load := by
  unfold mayStore at h
  unfold mayAccess
  cases ha : accesses i with
  | none => exact .inl rfl
  | load => exact .inr rfl
  | store | both => rw [ha] at h; cases h

/-- The history grows, and no instruction changes the parameters or the registry. -/
theorem exec_grows {i : Instr} {s t : State} (h : exec i s = .next t) :
    s.events <+: t.events ∧ s.draws ≤ t.draws ∧ t.cfg = s.cfg ∧ t.channels = s.channels := by
  cases exec_changes h with
  | frame hf => exact ⟨hf.events, hf.draws, hf.cfg, hf.channels⟩
  | spsr _ _ _ _ ht => rw [ht]; exact ⟨List.prefix_refl _, Nat.le_refl _, rfl, rfl⟩
  | halt _ ht => rw [ht]; exact ⟨List.prefix_refl _, Nat.le_refl _, rfl, rfl⟩

/-- Settles O53: an instruction that stores nothing makes no access, or is a load. -/
theorem frameMemoryAndHistory : Obligations.FrameMemoryAndHistory := by
  intro i s t h
  refine ⟨fun hs => ?_, fun ha => ?_, exec_grows h⟩
  · rcases mayStore_eq_false hs with ha | ha
    · exact (exec_quiet ha h).mem
    · exact exec_mem_of_load ha h
  · exact ⟨(exec_quiet ha h).mem, (exec_quiet ha h).events, (exec_quiet ha h).draws⟩

end Sys2Proof.Machine
end

section
/-! The block stores (46_arm_block_transfer.md; 49_thumb_load_store_branch.md section 6; 20_memory.md R73). -/
namespace Sys2Proof.Claims
open Sys2Proof Sys2Proof.Machine

theorem onlyWords.congr_mem {s t u : State} {a : Word} {n : Nat} (h : onlyWords s t a n) (hm : u.mem = t.mem) : onlyWords s u a n :=
  fun c hc => by rw [hm, h c hc]

/-- The first word is written at `a`, the others from `a + 4` up. -/
theorem writeBlock_onlyWords {s t : State} {a : Word} {vs : List Word} (h : s.writeBlock a vs = .ok t) :
    onlyWords s t a vs.length := by
  induction vs generalizing s a with
  | nil => cases h; exact fun _ _ => rfl
  | cons v vs ih =>
    obtain ⟨u, hu, h⟩ := bind_ok.mp h
    intro c hc
    have hrest := ih h c fun k hk => by
      have := hc (k + 1) (Nat.succ_lt_succ hk)
      rwa [span_succ] at this
    have hfirst := memWrite_outside hu c (by simpa [span, widthBytes] using hc 0 (Nat.zero_lt_succ _))
    exact hrest.trans hfirst

/-- Where the policy starts a block that it does not refuse. -/
theorem blockStart_storedAt {s : State} {a b : Word} (h : s.blockStart a = .ok b) : b = storedAt s .word a := by
  unfold State.blockStart at h
  unfold storedAt
  split at h <;> rename_i hm
  · split at h <;> rename_i hp
    · cases h
    · split at h
      · cases h
      · cases h; rw [if_pos ⟨hm, hp⟩]
    · cases h; rw [if_neg fun hc => by rw [hp] at hc; cases hc.2]
  · cases h; rw [if_neg fun hc => hm hc.1]

/-- The advance leaves memory and what the policy reads. -/
theorem storeBlock_onlyWords {s t : State} {a : Word} {vs : List Word} (h : s.advance.storeBlock a vs = .ok t) :
    onlyWords s t (storedAt s .word a) vs.length := by
  obtain ⟨b, hb, hw⟩ := storeBlock_ok h
  rw [blockStart_storedAt hb] at hw
  exact (writeBlock_onlyWords hw :)

theorem armExec_onlyWords {c : Cond} {effect : State → Result State} {s t : State} {a : Word} {n : Nat}
    (h : armExec c effect s = .next t) (he : effect s = .ok t → onlyWords s t a n) : onlyWords s t a n := by
  rcases armExec_next h with ⟨_, rfl⟩ | ⟨_, h⟩
  · exact fun _ _ => rfl
  · exact he h

theorem storeMultiple_onlyWords {s t : State} {k : BlockMode} {w : Bool} {rn : Reg} {list : BitVec 16} {a b : Word}
    (ha : s.blockAddress k rn list = .ok (a, b)) (h : s.storeMultiple k w rn list = .ok t) :
    onlyWords s t (storedAt s .word a) (regsOf list).length := by
  obtain ⟨a', b', u, ha', _, hw, rfl⟩ := storeMultiple_ok h
  cases ha.symm.trans ha'
  have hu := storeBlock_onlyWords hw
  rw [List.length_map] at hu
  exact onlyWords.congr_mem hu (by split <;> simp)

theorem storeMultipleUser_onlyWords {s t : State} {k : BlockMode} {w : Bool} {rn : Reg} {list : BitVec 16} {a b : Word}
    (ha : s.blockAddress k rn list = .ok (a, b)) (h : s.storeMultipleUser k w rn list = .ok t) :
    onlyWords s t (storedAt s .word a) (regsOf list).length := by
  obtain ⟨_, _, a', b', ha', hw⟩ := storeMultipleUser_ok h
  cases ha.symm.trans ha'
  have hu := storeBlock_onlyWords hw
  rwa [List.length_map] at hu

theorem stackRegs_eq (list : BitVec 8) (r : Bool) (last : Reg) : stackRegs list r last = stackList list r last := by
  cases r
  · exact List.append_nil _
  · rfl

theorem exec_pushT (r : Bool) (list : BitVec 8) (s : State) : exec (.pushT r list) s = finish (s.push (stackList list r 14)) := by
  rw [← stackRegs_eq]
  rfl

theorem exec_stmiaT (rb : LowReg) (list : BitVec 8) (s : State) :
    exec (.stmiaT rb list) s = finish (s.storeMultipleT rb.reg (regsOf list)) := rfl

/-- Settles O55: each family stores its words by one block store, whose start the state before gives. -/
theorem frameBlockStores : Obligations.FrameBlockStores := by
  refine ⟨fun k c w rn list s t a b ha h => ?stm, fun r list s t h => ?push, fun rb list s t h => ?stmia⟩
  case stm =>
    rcases h with h | h
    · rw [exec_stm] at h
      exact armExec_onlyWords h (storeMultiple_onlyWords ha)
    · rw [exec_stmUsr] at h
      exact armExec_onlyWords h (storeMultipleUser_onlyWords ha)
  case push =>
    rw [exec_pushT] at h
    obtain ⟨_, u, hw, rfl⟩ := push_ok (finish_next.mp h)
    have hu := storeBlock_onlyWords hw
    rw [List.length_map] at hu
    exact onlyWords.congr_mem hu (by simp)
  case stmia =>
    rw [exec_stmiaT] at h
    obtain ⟨_, _, u, hw, rfl⟩ := storeMultipleT_ok (finish_next.mp h)
    have hu := storeBlock_onlyWords hw
    rw [List.length_map] at hu
    exact onlyWords.congr_mem hu (by simp)

end Sys2Proof.Claims
end

section
/-! The forms that are not admitted (60_exceptions.md R405, R406): the order of a register list, the checks of each meaning as the list of
checks that `formFault` gives, and that list against `Instr.wellFormed`. -/
namespace Sys2Proof.Claims
open Sys2Proof Sys2Proof.Machine

/-! ### Register lists (46_arm_block_transfer.md R290) -/

theorem regsOf_pairwise {n : Nat} (list : BitVec n) : (regsOf list).Pairwise fun r q => r.val < q.val :=
  List.Pairwise.filter _ (by decide)

/-- Settles O29: the registers are filtered, in order, from R0 to R15. -/
theorem registerListOrder : Obligations.RegisterListOrder :=
  fun _ list _ => ⟨regsOf_pairwise list, mem_regsOf list⟩

/-- A list of up to 16 bits is empty where it has no register. -/
theorem isEmpty_regsOf {n : Nat} (hn : n ≤ 16) (list : BitVec n) : (regsOf list).isEmpty = (list == 0) := by
  rw [Bool.eq_iff_iff, List.isEmpty_iff, beq_iff_eq]
  constructor
  · intro he
    apply BitVec.eq_of_getLsbD_eq
    intro i hi
    have hr := (mem_regsOf list ⟨i, by omega⟩).not.mp (by rw [he]; exact List.not_mem_nil)
    simpa using hr
  · rintro rfl
    exact List.eq_nil_iff_forall_not_mem.mpr fun r hr => by simpa using (mem_regsOf _ r).mp hr

theorem contains_regsOf {n : Nat} (list : BitVec n) (r : Reg) : (regsOf list).contains r = list.getLsbD r.val := by
  rw [Bool.eq_iff_iff, List.contains_iff_mem, mem_regsOf]

/-- The first register of a list has no lower one in it. -/
theorem setWidth_of_head? {n : Nat} {list : BitVec n} {r : Reg} (h : (regsOf list).head? = some r) : list.setWidth r.val = 0 := by
  obtain ⟨l, hl⟩ := List.head?_eq_some_iff.mp h
  apply BitVec.eq_of_getLsbD_eq
  intro i hi
  by_contra hbit
  have hmem : (⟨i, by omega⟩ : Reg) ∈ regsOf list := (mem_regsOf list _).mpr (by simpa [hi] using hbit)
  have hle := (List.pairwise_cons.mp (hl ▸ regsOf_pairwise list)).1
  rcases List.mem_cons.mp (hl ▸ hmem) with he | hin
  · have := congrArg Fin.val he
    simp only at this
    omega
  · have := hle _ hin
    simp only at this
    omega

/-- STM's check of its base: it is in the list and not the lowest there (R291). -/
theorem baseCheck_eq {n : Nat} (list : BitVec n) (r : Reg) :
    ((regsOf list).contains r && (regsOf list).head? != some r) = notLowest list r.val := by
  rw [notLowest, contains_regsOf]
  cases hbit : list.getLsbD r.val
  · rfl
  · rw [Bool.true_and, Bool.true_and, Bool.eq_iff_iff, bne_iff_ne, bne_iff_ne]
    exact not_congr ⟨setWidth_of_head?, head?_regsOf hbit⟩

/-! ### Checks and the first fault (R406) -/

/-- A check in front of the rest of a meaning gives the first fault, when the rest does where the check passes. -/
theorem faultIf_bind_of_firstOf {α : Type} {b b' : Bool} {f g : Fault} {rest : List (Bool × Fault)} {k : Unit → Result α}
    (h : firstOf ((b, f) :: rest) = some g) (hb : b' = b) (hk : firstOf rest = some g → k () = .error g) :
    (faultIf b' f >>= k) = .error g := by
  subst hb
  rw [firstOf] at h
  cases b'
  · exact hk h
  · cases h; rfl

theorem firstOf_nil_ne_some {g : Fault} {p : Prop} (h : firstOf [] = some g) : p := nomatch h

/-- A meaning with one check. -/
theorem check_error {α : Type} {b b' : Bool} {f g : Fault} {k : Unit → Result α} (h : firstOf [(b, f)] = some g) (hb : b' = b) :
    (faultIf b' f >>= k) = .error g := faultIf_bind_of_firstOf h hb firstOf_nil_ne_some

theorem bind_error {α β : Type} {x : Result α} {g : Fault} (h : x = .error g) (k : α → Result β) : (x >>= k) = .error g := by
  rw [h]
  rfl

theorem armExec_fault {c : Cond} {effect : State → Result State} {s : State} {g : Fault} (hc : s.condPassed c = true)
    (he : effect s = .error g) : armExec c effect s = .fault g := by
  rw [armExec_of_passed hc, he, finish_error]

theorem thumbExec_fault {effect : State → Result State} {s : State} {g : Fault} (he : effect s = .error g) :
    thumbExec effect s = .fault g := finish_fault.mpr he

/-! ### Data processing by a register shift (R191) -/

theorem anyPc_perm {l m : List Reg} (h : l.Perm m) : anyPc l = anyPc m := by
  rw [Bool.eq_iff_iff]
  simp only [anyPc, List.any_eq_true, h.mem_iff]

theorem operandRsr_error {s : State} {named l : List Reg} {rs rm : Reg} {st : ShiftType} {g : Fault}
    (h : firstOf [(anyPc l, .unpredictable .dpRegShiftPc)] = some g) (hl : (rs :: rm :: named).Perm l) :
    s.operandRsr named rs st rm = .error g := by
  refine check_error h ((?_ : _ = anyPc (rs :: rm :: named)).trans (anyPc_perm hl))
  rw [Bool.eq_iff_iff]
  simp [anyPc, or_comm]

theorem twoNamed_perm (rn rd rs rm : Reg) : [rs, rm, rd, rn].Perm [rn, rd, rs, rm] :=
  (List.perm_append_comm (l₁ := [rs, rm])).trans (.swap ..)

theorem oneNamed_perm (rd rs rm : Reg) : [rs, rm, rd].Perm [rd, rs, rm] := List.perm_append_comm (l₁ := [rs, rm])

theorem dataProc_error {s : State} {named l : List Reg} {rs rm : Reg} {st : ShiftType} {alu : Word × Bool → AluResult} {setf : Bool}
    {rd : Reg} {g : Fault} (h : firstOf [(anyPc l, .unpredictable .dpRegShiftPc)] = some g) (hl : (rs :: rm :: named).Perm l) :
    s.dataProc (s.operandRsr named rs st rm) alu setf rd = .error g := bind_error (operandRsr_error h hl) _

theorem compare_error {s : State} {named l : List Reg} {rs rm : Reg} {st : ShiftType} {alu : Word × Bool → AluResult} {g : Fault}
    (h : firstOf [(anyPc l, .unpredictable .dpRegShiftPc)] = some g) (hl : (rs :: rm :: named).Perm l) :
    s.compare (s.operandRsr named rs st rm) alu = .error g := bind_error (operandRsr_error h hl) _

/-! ### Single and halfword transfers (45_arm_load_store.md R260, R266) -/

/-- An offset whose computation faults `f` exactly where `bad` holds. -/
def offsetFaults (off : Result Word) (bad : Bool) (f : Fault) : Prop := ∃ v, off = if bad then .error f else .ok v

theorem sdtOffsetImm_faults (n : BitVec 12) (f : Fault) : offsetFaults (sdtOffsetImm n) false f := ⟨_, rfl⟩

theorem hdtOffsetImm_faults (hi lo : BitVec 4) (f : Fault) : offsetFaults (hdtOffsetImm hi lo) false f := ⟨_, rfl⟩

theorem sdtOffsetReg_faults (s : State) (n : BitVec 5) (t : ShiftType) (rm : Reg) :
    offsetFaults (s.sdtOffsetReg n t rm) (anyPc [rm]) (.unpredictable .sdtPcOffset) := by
  rw [anyPc, List.any_cons, List.any_nil, Bool.or_false]
  refine ⟨(shiftImm t n (s.readReg rm) s.flagC).1, ?_⟩
  unfold State.sdtOffsetReg
  cases rm == 15 <;> rfl

theorem hdtOffsetReg_faults (s : State) (rm : Reg) :
    offsetFaults (s.hdtOffsetReg rm) (anyPc [rm]) (.unpredictable .hdtPcOffset) := by
  rw [anyPc, List.any_cons, List.any_nil, Bool.or_false]
  refine ⟨s.readReg rm, ?_⟩
  unfold State.hdtOffsetReg
  cases rm == 15 <;> rfl

/-- The checks of a transfer's address that follow its offset. -/
theorem offset_bind_of_firstOf {α : Type} {off : Result Word} {bad : Bool} {f g : Fault} {rest : List (Bool × Fault)}
    {k : Word → Result α} (ho : offsetFaults off bad f) (h : firstOf ((bad, f) :: rest) = some g)
    (hk : ∀ v, firstOf rest = some g → k v = .error g) : (off >>= k) = .error g := by
  obtain ⟨v, rfl⟩ := ho
  rw [firstOf] at h
  cases bad
  · exact hk v h
  · cases h; rfl

theorem sdtAddress_error {s : State} {off : Result Word} {bad p u w : Bool} {rn rd : Reg} {g : Fault}
    (ho : offsetFaults off bad (.unpredictable .sdtPcOffset)) (h : firstOf (sdtTags bad (!p || w) rn rd) = some g) :
    s.sdtAddress off p u w rn rd = .error g :=
  offset_bind_of_firstOf ho h fun _ h => faultIf_bind_of_firstOf h rfl fun h => check_error h rfl

theorem hdtAddress_error {s : State} {off : Result Word} {bad p u w : Bool} {rn rd : Reg} {g : Fault}
    (ho : offsetFaults off bad (.unpredictable .hdtPcOffset)) (h : firstOf (hdtTags bad p w rn rd) = some g) :
    s.hdtAddress off p u w rn rd = .error g :=
  offset_bind_of_firstOf ho h fun _ h =>
    faultIf_bind_of_firstOf h rfl fun h => faultIf_bind_of_firstOf h rfl fun h => check_error h rfl

theorem anyPc_singleton (r : Reg) : (r == 15) = anyPc [r] := (Bool.or_false _).symm

theorem loadWord_error {s : State} {address : Result (Word × Option Word)} {rn rd : Reg} {g : Fault} (h : address = .error g) :
    s.loadWord address rn rd = .error g := bind_error h _

theorem storeWord_error {s : State} {address : Result (Word × Option Word)} {rn rd : Reg} {g : Fault} (h : address = .error g) :
    s.storeWord address rn rd = .error g := bind_error h _

theorem loadNarrow_error {s : State} {tag : Tag} {k : LoadKind} {address : Result (Word × Option Word)} {rn rd : Reg} {g : Fault}
    {tags : List (Bool × Fault)} (h : firstOf ((anyPc [rd], .unpredictable tag) :: tags) = some g)
    (ha : firstOf tags = some g → address = .error g) : s.loadNarrow tag k address rn rd = .error g :=
  faultIf_bind_of_firstOf h (anyPc_singleton rd) fun h => bind_error (ha h) _

theorem storeNarrow_error {s : State} {tag : Tag} {w : Width} {address : Result (Word × Option Word)} {rn rd : Reg} {g : Fault}
    {tags : List (Bool × Fault)} (h : firstOf ((anyPc [rd], .unpredictable tag) :: tags) = some g)
    (ha : firstOf tags = some g → address = .error g) : s.storeNarrow tag w address rn rd = .error g :=
  faultIf_bind_of_firstOf h (anyPc_singleton rd) fun h => bind_error (ha h) _

/-! ### Block transfers (46_arm_block_transfer.md R290 to R294) -/

/-- The checks of a block's addressing, and those that follow it. -/
theorem blockAddress_bind_of_firstOf {α : Type} {s : State} {k : BlockMode} {rn : Reg} {list : BitVec 16} {rest : List (Bool × Fault)}
    {g : Fault} {f : Word × Word → Result α} (h : firstOf (blockTags rn list ++ rest) = some g)
    (hf : ∀ x, firstOf rest = some g → f x = .error g) : (s.blockAddress k rn list >>= f) = .error g := by
  unfold State.blockAddress
  rw [bind_assoc]
  refine faultIf_bind_of_firstOf h (isEmpty_regsOf (Nat.le_refl 16) list) fun h => ?_
  rw [bind_assoc]
  exact faultIf_bind_of_firstOf h rfl fun h => hf _ h

theorem storeMultiple_error {s : State} {k : BlockMode} {w : Bool} {rn : Reg} {list : BitVec 16} {g : Fault}
    (h : firstOf (blockTags rn list ++ [(w && notLowest list rn.val, .unpredictable .stmWritebackBase)]) = some g) :
    s.storeMultiple k w rn list = .error g :=
  blockAddress_bind_of_firstOf h fun _ h => check_error h (by rw [Bool.and_assoc, baseCheck_eq])

theorem storeMultipleUser_error {s : State} {k : BlockMode} {w : Bool} {rn : Reg} {list : BitVec 16} {g : Fault}
    (h : firstOf ((s.spsr?.isNone, .unpredictable .userBankInUserMode) :: (w, .unpredictable .userBankWriteback) ::
      blockTags rn list) = some g) : s.storeMultipleUser k w rn list = .error g :=
  faultIf_bind_of_firstOf h rfl fun h => faultIf_bind_of_firstOf h rfl fun h =>
    blockAddress_bind_of_firstOf (rest := []) h fun _ h => firstOf_nil_ne_some h

theorem loadRegs_error {s : State} {k : BlockMode} {w : Bool} {rn : Reg} {list : BitVec 16} {g : Fault}
    (h : firstOf (blockTags rn list ++ [(w && list.getLsbD rn.val, .unpredictable .ldmWritebackBase)]) = some g) :
    s.loadRegs k w rn list = .error g :=
  blockAddress_bind_of_firstOf h fun _ h => check_error h (by rw [contains_regsOf])

theorem loadMultipleRestore_error {s : State} {k : BlockMode} {w : Bool} {rn : Reg} {list : BitVec 16} {g : Fault}
    (h : firstOf ((s.spsr?.isNone, .noSpsr) :: blockTags rn list ++ [(w && list.getLsbD rn.val, .unpredictable .ldmWritebackBase)]) =
      some g) : s.loadMultipleRestore k w rn list = .error g :=
  faultIf_bind_of_firstOf h rfl fun h => bind_error (loadRegs_error h) _

/-! ### Thumb (48_thumb_data_ops.md R345, R348; 49_thumb_load_store_branch.md R377 to R380) -/

theorem isEmpty_stackRegs (list : BitVec 8) (r : Bool) (last : Reg) : (stackRegs list r last).isEmpty = (list == 0 && !r) := by
  rw [stackRegs, ← isEmpty_regsOf (by decide) list]
  cases r <;> cases regsOf list <;> rfl

theorem storeMultipleT_error {s : State} {rb : Reg} {list : BitVec 8} {g : Fault}
    (h : firstOf [(list == 0, .unpredictable .emptyList), (notLowest list rb.val, .unpredictable .stmWritebackBase)] = some g) :
    s.storeMultipleT rb (regsOf list) = .error g :=
  faultIf_bind_of_firstOf h (isEmpty_regsOf (by decide) list) fun h => check_error h (baseCheck_eq list rb)

theorem loadMultipleT_error {s : State} {rb : Reg} {list : BitVec 8} {g : Fault}
    (h : firstOf [(list == 0, .unpredictable .emptyList), (list.getLsbD rb.val, .unpredictable .ldmWritebackBase)] = some g) :
    s.loadMultipleT rb (regsOf list) = .error g :=
  faultIf_bind_of_firstOf h (isEmpty_regsOf (by decide) list) fun h => check_error h (contains_regsOf list rb)

/-! ### Every form -/

/-- An instruction whose condition passes gives the first fault of its form. -/
theorem exec_of_formFault {i : Instr} {s : State} {g : Fault} (h : formFault s i = some g)
    (hc : ∀ c, i.cond? = some c → s.condPassed c = true) : exec i s = .fault g := by
  unfold exec
  cases i with
  -- 42_arm_data_processing.md
  | andRsr | eorRsr | subRsr | rsbRsr | addRsr | adcRsr | sbcRsr | rscRsr | orrRsr | bicRsr =>
    exact armExec_fault (hc _ rfl) (dataProc_error h (twoNamed_perm ..))
  | movRsr | mvnRsr => exact armExec_fault (hc _ rfl) (dataProc_error h (oneNamed_perm ..))
  | tstRsr | teqRsr | cmpRsr | cmnRsr => exact armExec_fault (hc _ rfl) (compare_error h (oneNamed_perm ..))
  -- 41_arm_branch.md, 43_arm_multiply.md
  | blxReg => exact armExec_fault (hc _ rfl) (check_error h (anyPc_singleton _))
  | mul | mla | smlawy | smulxy =>
    exact armExec_fault (hc _ rfl) (check_error h (by simp [anyPc, Bool.or_comm, Bool.or_left_comm]))
  | umull | umlal | smull | smlal | umaal | smlalxy =>
    exact armExec_fault (hc _ rfl)
      (check_error h (by simp [anyPc, longRegCheck, longBad, Bool.or_comm, Bool.or_left_comm]))
  | smlaxy | smulwy => cases h; exact armExec_fault (hc _ rfl) rfl
  -- 44_arm_psr_transfer.md
  | mrsCpsr | mrsSpsr => exact armExec_fault (hc _ rfl) (check_error h (anyPc_singleton _))
  | msrRegCpsr | msrRegSpsr => exact armExec_fault (hc _ rfl) (bind_error (check_error h (anyPc_singleton _)) _)
  -- 45_arm_load_store.md
  | swp | swpb => exact armExec_fault (hc _ rfl) (check_error h (by simp [anyPc, Bool.or_assoc]))
  | ldrImmPre | ldrImmPost | ldrtImm => exact armExec_fault (hc _ rfl) (loadWord_error (sdtAddress_error (sdtOffsetImm_faults _ _) h))
  | ldrRegPre | ldrRegPost | ldrtReg =>
    exact armExec_fault (hc _ rfl) (loadWord_error (sdtAddress_error (sdtOffsetReg_faults s _ _ _) h))
  | strImmPre | strImmPost | strtImm => exact armExec_fault (hc _ rfl) (storeWord_error (sdtAddress_error (sdtOffsetImm_faults _ _) h))
  | strRegPre | strRegPost | strtReg =>
    exact armExec_fault (hc _ rfl) (storeWord_error (sdtAddress_error (sdtOffsetReg_faults s _ _ _) h))
  | ldrbImmPre | ldrbImmPost | ldrbtImm =>
    exact armExec_fault (hc _ rfl) (loadNarrow_error h fun h => sdtAddress_error (sdtOffsetImm_faults _ _) h)
  | ldrbRegPre | ldrbRegPost | ldrbtReg =>
    exact armExec_fault (hc _ rfl) (loadNarrow_error h fun h => sdtAddress_error (sdtOffsetReg_faults s _ _ _) h)
  | strbImmPre | strbImmPost | strbtImm =>
    exact armExec_fault (hc _ rfl) (storeNarrow_error h fun h => sdtAddress_error (sdtOffsetImm_faults _ _) h)
  | strbRegPre | strbRegPost | strbtReg =>
    exact armExec_fault (hc _ rfl) (storeNarrow_error h fun h => sdtAddress_error (sdtOffsetReg_faults s _ _ _) h)
  | ldrhImm | ldrsbImm | ldrshImm =>
    exact armExec_fault (hc _ rfl) (loadNarrow_error h fun h => hdtAddress_error (hdtOffsetImm_faults _ _ _) h)
  | ldrhReg | ldrsbReg | ldrshReg =>
    exact armExec_fault (hc _ rfl) (loadNarrow_error h fun h => hdtAddress_error (hdtOffsetReg_faults s _) h)
  | strhImm => exact armExec_fault (hc _ rfl) (storeNarrow_error h fun h => hdtAddress_error (hdtOffsetImm_faults _ _ _) h)
  | strhReg => exact armExec_fault (hc _ rfl) (storeNarrow_error h fun h => hdtAddress_error (hdtOffsetReg_faults s _) h)
  -- 46_arm_block_transfer.md
  | stmia | stmib | stmda | stmdb => exact armExec_fault (hc _ rfl) (storeMultiple_error h)
  | ldmia | ldmib | ldmda | ldmdb => exact armExec_fault (hc _ rfl) (bind_error (loadRegs_error h) _)
  | stmiaUsr | stmibUsr | stmdaUsr | stmdbUsr => exact armExec_fault (hc _ rfl) (storeMultipleUser_error h)
  | ldmiaRst | ldmibRst | ldmdaRst | ldmdbRst => exact armExec_fault (hc _ rfl) (loadMultipleRestore_error h)
  -- 48_thumb_data_ops.md, 49_thumb_load_store_branch.md
  | mulT | addHiT | cmpHiT | movHiT => exact thumbExec_fault (check_error h rfl)
  | bxH1T => cases h; rfl
  | pushT | popT => exact thumbExec_fault (check_error h (isEmpty_stackRegs _ _ _))
  | stmiaT => exact thumbExec_fault (storeMultipleT_error h)
  | ldmiaT => exact thumbExec_fault (loadMultipleT_error h)
  | _ => exact nomatch (h : none = some g)

theorem isNone_firstOf (l : List (Bool × Fault)) : (firstOf l).isNone = l.all (!·.1) := by
  induction l with
  | nil => rfl
  | cons x xs ih =>
    obtain ⟨b, f⟩ := x
    cases b
    · exact ih
    · rfl

theorem not_anyPc (l : List Reg) : (!anyPc l) = l.all notPc := List.not_any_eq_all_not

/-- A form has no fault where its fields are admitted and, in the S forms of LDM and STM, the mode has an SPSR. -/
theorem formFault_isNone (i : Instr) (s : State) : (formFault s i).isNone = i.wellFormed ∨
    (formFault s i).isNone = (i.wellFormed && s.spsr?.isSome) := by
  unfold formFault Instr.wellFormed
  cases i with
  | andRsr | eorRsr | subRsr | rsbRsr | addRsr | adcRsr | sbcRsr | rscRsr | orrRsr | bicRsr | movRsr | mvnRsr | tstRsr | teqRsr
  | cmpRsr | cmnRsr | blxReg | smlawy | smulxy | mrsCpsr | mrsSpsr | msrRegCpsr | msrRegSpsr =>
    left
    simp [isNone_firstOf, not_anyPc, Bool.and_assoc]
  | mul | mla | swp | swpb =>
    left
    simp [isNone_firstOf, not_anyPc, Bool.and_assoc, bne]
  | umull | umlal | smull | smlal | umaal | smlalxy =>
    left
    simp [isNone_firstOf, not_anyPc, longRegsOk, Bool.and_assoc, bne]
  | ldrImmPre | ldrImmPost | ldrtImm | ldrRegPre | ldrRegPost | ldrtReg | strImmPre | strImmPost | strtImm | strRegPre | strRegPost
  | strtReg | ldrbImmPre | ldrbImmPost | ldrbtImm | ldrbRegPre | ldrbRegPost | ldrbtReg | strbImmPre | strbImmPost | strbtImm
  | strbRegPre | strbRegPost | strbtReg =>
    left
    simp [isNone_firstOf, sdtTags, not_anyPc, Bool.and_assoc, bne, notPc, Bool.or_and_distrib_left]
  | ldrhImm | ldrsbImm | ldrshImm | ldrhReg | ldrsbReg | ldrshReg | strhImm | strhReg =>
    left
    simp [isNone_firstOf, hdtTags, not_anyPc, Bool.and_assoc, bne, notPc, halfIndexOk, Bool.or_and_distrib_left]
  | stmia | stmib | stmda | stmdb =>
    left
    simp [isNone_firstOf, blockTags, Bool.and_assoc, bne, notPc, notLowest, storeBaseOk]
  | ldmia | ldmib | ldmda | ldmdb =>
    left
    simp [isNone_firstOf, blockTags, Bool.and_assoc, bne, notPc]
  | stmiaUsr | stmibUsr | stmdaUsr | stmdbUsr | ldmiaRst | ldmibRst | ldmdaRst | ldmdbRst =>
    right
    simp [isNone_firstOf, blockTags, Bool.and_assoc, Bool.and_left_comm, Bool.and_comm, bne, notPc]
  | mulT | addHiT | cmpHiT | movHiT | pushT | popT =>
    left
    simp [isNone_firstOf, bne]
  | stmiaT | ldmiaT =>
    left
    simp [isNone_firstOf, bne, notLowest, storeBaseOk]
  | _ => exact .inl rfl

/-- Settles O7: a form that is not admitted has a first fault, and each meaning makes the checks of its form in that order. -/
theorem illFormedFormsFault : Obligations.IllFormedFormsFault := by
  refine ⟨fun i s hi hc => ?_, fun i s hi hs => ?_⟩
  · have hf : (formFault s i).isNone = false := by
      rcases formFault_isNone i s with h | h <;> rw [h, hi]
      rfl
    obtain ⟨g, hg⟩ := Option.isSome_iff_exists.mp (Option.isNone_eq_false_iff.mp hf)
    exact ⟨g, hg, exec_of_formFault hg hc⟩
  · refine Option.isNone_iff_eq_none.mp ?_
    rcases formFault_isNone i s with h | h <;> rw [h, hi]
    rw [hs]
    rfl

end Sys2Proof.Claims
end

section
/-! Data processing that writes R15 (42_arm_data_processing.md R192): a branch without S, a return with it. -/
namespace Sys2Proof.Claims
open Sys2Proof Sys2Proof.Machine

/-- A form that runs writes the first component of R210's row. -/
theorem exec_dp_passed {op : DpOp} {c : Cond} {setf : Bool} {rn rd : Reg} {o : Operand2} {s : State} (hc : s.condPassed c = true)
    (hok : operandOk o (dpNamed op rn rd) = true) :
    exec (.dp op c setf rn rd o) s = finish (s.advance.writeDp setf rd (dpAlu op s.flagC (s.readReg rn) (operand s o))) := by
  rw [exec_dp, armExec_of_passed hc, State.dataProc, operandResult_eq, operandOk_reverse, if_pos hok, ok_bind]

theorem dpAlu_value (op : DpOp) (c v : Bool) (x : Word) (o : Word × Bool) :
    (dpAlu op c x o).value = (dpOut op x o.1 o.2 c v).1 := congrArg Prod.fst (aluSummary_dpAlu op c v x o)

theorem writeDp_pc (s : State) (r : AluResult) : s.writeDp false 15 r = s.writePcArm r.value := rfl

theorem writeDp_pc_return (s : State) (r : AluResult) :
    s.writeDp true 15 r = s.restoreCpsr >>= fun t => t.writePcAfterRestore r.value := rfl

/-- Settles O11: the write to R15 is a branch, and the operand's check is that of every form. -/
theorem dataProcessingWritesPc : Obligations.DataProcessingWritesPc := by
  refine ⟨fun op c rn o s hc hok => ?_, fun op c setf rn rd o s hc hok => ?_, fun op c rn rd o s hc hok => ?_⟩
  · rw [exec_dp_passed hc hok, writeDp_pc, finish_writePcArm, dpAlu_value op s.flagC s.flagV]
    rfl
  · rw [exec_dp, armExec_of_passed hc, State.dataProc, operandResult_eq, operandOk_reverse, hok]
    rfl
  · rw [exec_dpCmp, armExec_of_passed hc, State.compare, operandResult_eq, hok]
    rfl

/-- Settles O12: the write to R15 with S restores the CPSR and then writes the PC as the restored T says. -/
theorem dataProcessingRestoresCpsr : Obligations.DataProcessingRestoresCpsr := by
  intro op c rn o s hc hok
  rw [exec_dp_passed hc hok, writeDp_pc_return, dpAlu_value op s.flagC s.flagV]
  refine ⟨fun hs => ?_, fun k hs => ⟨fun hm => ?_, fun hm => ?_⟩⟩
  · rw [restoreCpsr_of_none (s := s.advance) hs]
    rfl
  · exact (finish_restoreCpsr_bind (p := s.advance) hs _).trans (if_pos hm)
  · exact (finish_restoreCpsr_bind (p := s.advance) hs _).trans
      ((if_neg (Option.isSome_iff_ne_none.mp hm)).trans (finish_writePcAfterRestore _ _))

end Sys2Proof.Claims
end

section
/-! The step (40_core_condition_shifter.md section 1; 20_memory.md R68): what a fetch answers in each state, and the words of the spec's
examples. -/
namespace Sys2Proof.Claims
open Sys2Proof Sys2Proof.Machine

theorem fetch_thumb {s : State} (hT : s.thumb = true) :
    s.fetch = if s.pc.toNat % 2 = 0 then (s.memRead s.pc .half).map fun x => (.thumb (x.1.setWidth 16), x.2)
      else .error (.misalignedFetch s.pc) := by
  rw [State.fetch, if_pos hT]
  split_ifs with h
  · rw [(getLsbD_zero_eq_false s.pc).mpr h]
    rfl
  · rw [Bool.eq_true_of_not_eq_false (mt (getLsbD_zero_eq_false s.pc).mp h)]
    rfl

theorem fetch_arm {s : State} (hT : s.thumb = false) :
    s.fetch = if s.pc.toNat % 4 = 0 then (s.memRead s.pc .word).map fun x => (.arm x.1, x.2)
      else .error (.misalignedFetch s.pc) := by
  rw [State.fetch, if_neg (Bool.not_eq_true _ ▸ hT)]
  split_ifs with h
  · rw [(get_two_eq_zero s.pc).mpr h]
    rfl
  · rw [bne_iff_ne.mpr (mt (get_two_eq_zero s.pc).mp h)]
    rfl

theorem fetch_of_misaligned {s : State} (h : s.pc.toNat % (if s.thumb then 2 else 4) ≠ 0) :
    s.fetch = .error (.misalignedFetch s.pc) := by
  cases hT : s.thumb <;> rw [hT] at h
  · exact (fetch_arm hT).trans (if_neg h)
  · exact (fetch_thumb hT).trans (if_neg h)

theorem step_of_fetch_error {s : State} {f : Fault} (hh : s.halted = false) (hf : s.fetch = .error f) : step s = .fault f := by
  simp only [step, hh, hf, Bool.false_eq_true, if_false]

/-- Settles O2: the fetch answers the code at an aligned program counter, and the step is the instruction it decodes to. -/
theorem stepRunsDecodedInstruction : Obligations.StepRunsDecodedInstruction := by
  refine ⟨fun s t code i => step_of_decode_ok, fun s i hh hT hpc hin => ?arm, fun s i hh hT hpc hin => ?thumb, fun s => ?advance,
    fun s hh => ?halted, fun s hh hpc => step_of_fetch_error hh (fetch_of_misaligned hpc)⟩
  case arm => exact step_of_decode_ok hh (by rw [fetch_arm hT, if_pos hpc, memRead_inside hin.1]; rfl)
  case thumb =>
    refine step_of_decode_ok (code := .thumb _) hh ?_
    rw [fetch_thumb hT, if_pos hpc, memRead_inside hin.1]
    exact congrArg (fun v => Except.ok (Code.thumb v, s)) ((BitVec.setWidth_setWidth_of_le _ (by decide)).trans (BitVec.setWidth_eq _))
  case advance => unfold State.advance State.width; cases s.thumb <;> rfl
  case halted => rw [step, if_pos hh]

/-- Settles O1: the decoder runs on each word. -/
theorem specWordsDecode : Obligations.SpecWordsDecode := by
  unfold Obligations.SpecWordsDecode
  decide

end Sys2Proof.Claims
end

section
/-! Thumb data operations and branches (48_thumb_data_ops.md R321 to R355; 49_thumb_load_store_branch.md R385 to R390): the shared meanings
as the results and flags of the rules, and the branch offsets as the integers of the rules. -/
namespace Sys2Proof.Claims
open Sys2Proof Sys2Proof.Machine

/-! ### The shared meanings of the data operations -/

theorem flagsOf_advance_writeReg (s : State) (q : Reg) (v r : Word) (c o : Bool) :
    flagsOf (s.advance.writeReg q v) r c o = flagsOf s r c o := by
  rw [flagsOf, State.writeReg_cpsr, State.advance_cpsr, flagsOf]

section LowWrite
variable (s : State) (rd : LowReg)

theorem shiftT_eq (o : Word × Bool) : s.shiftT rd o = .ok (lowWritten s rd (o.1, o.2, s.flagV)) := by
  rw [State.shiftT, setNZC_eq, State.flagV, State.writeReg_cpsr, flagsOf_advance_writeReg]
  rfl

theorem logicT_eq (v : Word) : s.logicT rd v = .ok (lowWritten s rd (v, s.flagC, s.flagV)) := by
  rw [State.logicT, setNZ_eq, State.flagC, State.flagV, State.writeReg_cpsr, flagsOf_advance_writeReg]
  rfl

theorem arithT_eq_addOut (x y : Word) (c : Bool) : s.arithT rd (addWithCarry x y c) = .ok (lowWritten s rd (addOut x y c)) := by
  rw [State.arithT, setFlags_arithmetic, flagsOf_advance_writeReg, ← addWithCarry_eq_addOut]
  rfl

theorem arithT_eq_subOut (x y : Word) (c : Bool) : s.arithT rd (addWithCarry x (~~~y) c) = .ok (lowWritten s rd (subOut x y (!c))) := by
  rw [arithT_eq_addOut, addOut_not_eq_subOut]

end LowWrite

theorem testT_eq (s : State) (v : Word) : s.testT v = .ok (flagsWritten s (v, s.flagC, s.flagV)) := by
  rw [State.testT, setNZ_eq]
  rfl

theorem compareT_eq_addOut (s : State) (x y : Word) (c : Bool) :
    s.compareT (addWithCarry x y c) = .ok (flagsWritten s (addOut x y c)) := by
  rw [State.compareT, setFlags_arithmetic, ← addWithCarry_eq_addOut]
  rfl

theorem compareT_eq_subOut (s : State) (x y : Word) (c : Bool) :
    s.compareT (addWithCarry x (~~~y) c) = .ok (flagsWritten s (subOut x y (!c))) := by
  rw [compareT_eq_addOut, addOut_not_eq_subOut]

theorem multiplyT_eq (s : State) {rs rd : LowReg} (h : rd ≠ rs) :
    s.multiplyT rs rd = .ok (lowWritten s rd
      (BitVec.ofNat 32 ((s.readReg rd.reg).toNat * (s.readReg rs.reg).toNat), s.flagC, s.flagV)) := by
  rw [State.multiplyT, beq_false_of_ne h, ← mul_eq_ofNat]
  exact logicT_eq s rd _

theorem thumbExec_ok {effect : State → Result State} {s t : State} (h : effect s = .ok t) : thumbExec effect s = .next t :=
  finish_next.mpr h

/-- Settles O35: the three forms are one shared meaning. -/
theorem thumbShiftImmediate : Obligations.ThumbShiftImmediate := by
  intro op n rs rd s
  cases op <;> exact thumbExec_ok (shiftT_eq s rd _)

/-- Settles O36: each form is the shared addition, subtraction, move or comparison. -/
theorem thumbAddSubMovCmp : Obligations.ThumbAddSubMovCmp := fun _ _ rd _ _ s =>
  ⟨thumbExec_ok (arithT_eq_addOut s rd _ _ _), thumbExec_ok (arithT_eq_subOut s rd _ _ _), thumbExec_ok (arithT_eq_addOut s rd _ _ _),
    thumbExec_ok (arithT_eq_subOut s rd _ _ _), thumbExec_ok (logicT_eq s rd _), thumbExec_ok (compareT_eq_subOut s _ _ _),
    thumbExec_ok (arithT_eq_addOut s rd _ _ _), thumbExec_ok (arithT_eq_subOut s rd _ _ _)⟩

/-- Settles O37: each operation is a shared meaning; MUL checks its registers first. -/
theorem thumbAluResults : Obligations.ThumbAluResults := by
  refine ⟨fun op rs rd s hmul => ?_,
    fun rd s => exec_of_formFault (i := .mulT rd rd) ?_ nofun⟩
  · cases op with
    | and | eor | orr | bic | mvn => exact thumbExec_ok (logicT_eq s rd _)
    | lsl | lsr | asr | ror => exact thumbExec_ok (shiftT_eq s rd _)
    | adc => exact thumbExec_ok (arithT_eq_addOut s rd _ _ _)
    | sbc | neg => exact thumbExec_ok (arithT_eq_subOut s rd _ _ _)
    | tst => exact thumbExec_ok (testT_eq s _)
    | cmp => exact thumbExec_ok (compareT_eq_subOut s _ _ _)
    | cmn => exact thumbExec_ok (compareT_eq_addOut s _ _ _)
    | mul => exact thumbExec_ok (effect := fun s => s.multiplyT rs rd) (multiplyT_eq s (hmul rfl))
  · rw [formFault, firstOf, beq_self_eq_true, if_pos rfl]

/-! ### High registers and addresses (R348 to R355) -/

theorem hiCheck_eq (h1 h2 : Bool) : (!h1 && !h2) = !(h1 || h2) := (Bool.not_or h1 h2).symm

theorem writeHi_eq (s : State) {h1 h2 : Bool} (h : (h1 || h2) = true) (d : Reg) (v : Word) :
    s.writeHi h1 h2 d v = .ok (if d = 15 then { s with pc := v &&& 0xFFFFFFFE#32 } else s.advance.writeReg d v) := by
  rw [State.writeHi, hiCheck_eq, h]
  rfl

theorem compareHi_eq (s : State) {h1 h2 : Bool} (h : (h1 || h2) = true) (r : Sum) : s.compareHi h1 h2 r = s.compareT r := by
  rw [State.compareHi, hiCheck_eq, h]
  rfl

theorem exec_addHiT (h1 h2 : Bool) (rs rd : LowReg) (s : State) :
    exec (.addHiT h1 h2 rs rd) s = finish (s.writeHi h1 h2 (hiReg h1 rd) (s.readReg (hiReg h1 rd) + s.readReg (hiReg h2 rs))) := rfl

theorem exec_movHiT (h1 h2 : Bool) (rs rd : LowReg) (s : State) :
    exec (.movHiT h1 h2 rs rd) s = finish (s.writeHi h1 h2 (hiReg h1 rd) (s.readReg (hiReg h2 rs))) := rfl

theorem exec_cmpHiT (h1 h2 : Bool) (rs rd : LowReg) (s : State) :
    exec (.cmpHiT h1 h2 rs rd) s =
      finish (s.compareHi h1 h2 (addWithCarry (s.readReg (hiReg h1 rd)) (~~~s.readReg (hiReg h2 rs)) true)) := rfl

theorem formFault_hi {h1 h2 : Bool} (h : (h1 || h2) = false) :
    firstOf [(!h1 && !h2, .unpredictable .hiRegLowLow)] = some (.unpredictable .hiRegLowLow) := by
  rw [hiCheck_eq, h]
  rfl

/-- Settles O38: the check of H1 and H2, then a write to R15 as a branch in Thumb state, to another register, or to the flags. -/
theorem thumbHighRegisters : Obligations.ThumbHighRegisters := by
  refine fun h1 h2 rs rd s => ⟨fun h => ⟨?add, ?mov, ?cmp⟩,
    fun h => ⟨exec_of_formFault (i := .addHiT h1 h2 rs rd) (formFault_hi h) nofun,
      exec_of_formFault (i := .movHiT h1 h2 rs rd) (formFault_hi h) nofun,
      exec_of_formFault (i := .cmpHiT h1 h2 rs rd) (formFault_hi h) nofun⟩⟩
  case add => rw [exec_addHiT, writeHi_eq s h, finish_ok]
  case mov => rw [exec_movHiT, writeHi_eq s h, finish_ok]
  case cmp => rw [exec_cmpHiT, compareHi_eq s h, compareT_eq_subOut, finish_ok, Bool.not_true]

theorem pcAligned_eq_pcWordT (s : State) : s.pcAligned = pcWordT s := rfl

/-- Settles O39: the four forms have no check. -/
theorem thumbAddressArithmetic : Obligations.ThumbAddressArithmetic := by
  intro rd word8 sword7 s
  rw [← scale4_eq, ← scale4_eq, ← pcAligned_eq_pcWordT]
  exact ⟨rfl, rfl, rfl, rfl⟩

/-! ### Branches (R385 to R390) -/

theorem signExtend_mul_two {n : Nat} (f : BitVec n) : f.signExtend 32 * 2 = BitVec.ofInt 32 (f.toInt * 2) := by
  rw [BitVec.ofInt_mul]
  rfl

theorem signExtend_shiftLeft_twelve {n : Nat} (f : BitVec n) : f.signExtend 32 <<< 12 = BitVec.ofInt 32 (f.toInt * 4096) := by
  rw [BitVec.ofInt_mul, BitVec.shiftLeft_eq_mul_twoPow]
  rfl

theorem setWidth_shiftLeft_one (f : BitVec 11) : f.setWidth 32 <<< 1 = BitVec.ofNat 32 (f.toNat * 2) :=
  (BitVec.shiftLeft_eq_mul_twoPow _ _).trans (scale2_eq f)

theorem exec_branchT {c : Cond} {n : BitVec 8} {i : Instr} (s : State) (h : Instr.branchT c n = some i) :
    exec i s = thumbExec (fun s => s.branchIfT c n) s := by
  cases c <;> cases h <;> rfl

/-- Settles O45: the fourteen forms are one meaning, in their condition. -/
theorem thumbConditionalBranch : Obligations.ThumbConditionalBranch := by
  intro c n i s hi
  rw [exec_branchT s hi, ← signExtend_mul_two]
  rfl

theorem exec_bT (n : BitVec 11) (s : State) :
    exec (.bT n) s = .next { s with pc := (s.pc + 4 + BitVec.ofInt 32 (n.toInt * 2)) &&& 0xFFFFFFFE#32 } := by
  rw [← signExtend_mul_two]
  rfl

theorem exec_blHiT (n : BitVec 11) (s : State) :
    exec (.blHiT n) s = .next (s.advance.writeReg 14 (s.pc + 4 + BitVec.ofInt 32 (n.toInt * 4096))) := by
  rw [← signExtend_shiftLeft_twelve]
  rfl

theorem exec_blLoT (n : BitVec 11) (s : State) :
    exec (.blLoT n) s =
      .next { s.writeReg 14 ((s.pc + 2) ||| 1) with pc := (s.readReg 14 + BitVec.ofNat 32 (n.toNat * 2)) &&& 0xFFFFFFFE#32 } := by
  rw [← setWidth_shiftLeft_one, State.writeReg_eq]
  rfl

/-- The offsets of the two halves of BL are the parts of one. -/
theorem blOffset_add (p : Word) (hi lo : BitVec 11) :
    p + BitVec.ofInt 32 (hi.toInt * 4096) + BitVec.ofNat 32 (lo.toNat * 2) = p + BitVec.ofInt 32 ((hi ++ lo).toInt * 2) := by
  have happend : (hi ++ lo).toInt * 2 = hi.toInt * 4096 + (lo.toNat * 2 : Nat) := by
    rw [BitVec.toInt_append]
    simp
    omega
  rw [happend, BitVec.ofInt_add, BitVec.ofInt_natCast, BitVec.add_assoc]

theorem add_ofInt_mul_two_mod_two (p : Word) (n : Int) : (p + BitVec.ofInt 32 (n * 2)).toNat % 2 = p.toNat % 2 := by
  rw [BitVec.ofInt_mul, BitVec.toNat_add, BitVec.toNat_mul, show (BitVec.ofInt 32 2).toNat = 2 from rfl]
  omega

theorem and_clear_bit_zero {v : Word} (h : v.toNat % 2 = 0) : v &&& 0xFFFFFFFE#32 = v := by
  apply BitVec.eq_of_getLsbD_eq
  intro i hi
  rcases Nat.eq_zero_or_pos i with rfl | hpos
  · simpa using (getLsbD_zero_eq_false v).mpr h
  · have hbit : ∀ j < 32, 0 < j → (0xFFFFFFFE#32).getLsbD j = true := by decide
    rw [BitVec.getLsbD_and, hbit i hi hpos, Bool.and_true]

theorem advance_pc_thumb {s : State} (hT : s.thumb = true) : s.advance.pc = s.pc + 2 := by
  rw [State.advance_pc, State.width, if_pos hT]

/-- Settles O46: the link register carries the first half's part of the offset to the second. -/
theorem thumbBranchAndLink : Obligations.ThumbBranchAndLink := by
  refine ⟨fun n s => ⟨exec_bT n s, exec_blHiT n s, exec_blLoT n s⟩, fun hi lo s hT hpc =>
    ⟨_, _, exec_blHiT hi s, exec_blLoT lo _, ?_, ?_⟩⟩
  · show (State.readReg _ 14 + _) &&& _ = _
    rw [State.readReg_writeReg _ _ _ _ (by decide), if_pos rfl, blOffset_add]
    apply and_clear_bit_zero
    rw [add_ofInt_mul_two_mod_two]
    bv_omega
  · refine (State.readReg_congr (s := State.writeReg _ 14 _) rfl rfl 14 (by decide)).trans ?_
    rw [State.readReg_writeReg _ _ _ _ (by decide), if_pos rfl,
      State.writeReg_pc, advance_pc_thumb hT, BitVec.add_assoc]
    rfl

end Sys2Proof.Claims
end

section
/-! Thumb loads and stores (49_thumb_load_store_branch.md R360 to R380): the single transfers and the stack and block forms, by what their
accesses answer at every address, and by the bytes and words of internal memory. -/
namespace Sys2Proof.Claims
open Sys2Proof Sys2Proof.Machine

/-! ### One register (R360 to R376) -/

theorem exec_loadT (k : LoadT) (rd : LowReg) (s : State) :
    exec (.loadT k rd) s = finish (s.loadT (loadTKind k) (loadTAddr s k) rd) := by
  cases k with
  | wordReg | byteReg | halfReg | signedByteReg | signedHalfReg => rfl
  | pc n | sp n | wordImm n => simp only [loadTAddr, ← scale4_eq]; rfl
  | byteImm n => simp only [loadTAddr, BitVec.ofNat_toNat]; rfl
  | halfImm n => simp only [loadTAddr, ← scale2_eq]; rfl

theorem finish_loadT (s : State) (k : LoadKind) (a : Word) (rd : LowReg) :
    finish (s.loadT k a rd) = after (s.dataRead k a) fun x => .next (x.2.advance.writeReg rd.reg x.1) := by
  rw [State.loadT, dataRead_advance]
  cases s.dataRead k a <;> rfl

theorem finish_storeT (s : State) (w : Width) (a : Word) (rd : LowReg) :
    finish (s.storeT w a rd) = after (s.dataWrite w a (truncate w (s.readReg rd.reg))) fun t => .next t.advance := by
  rw [State.storeT, dataWrite_advance]
  cases s.dataWrite w a (truncate w (s.readReg rd.reg)) <;> rfl

theorem widthBytes_loadTKind (k : LoadT) : widthBytes (loadWidth (loadTKind k)) = loadTWidth k := by cases k <;> rfl

theorem extended_valueAt_loadT (s : State) (k : LoadT) (b : Nat) :
    extended (loadTKind k) (valueAt s (loadWidth (loadTKind k)) b) = loadTValue s b k := by
  cases k with
  | pc | sp | wordReg | wordImm => rfl
  | byteReg | byteImm => exact extended_valueAt_byte s b
  | halfReg | halfImm => exact extended_valueAt_half s b
  | signedByteReg => exact extended_valueAt_signedByte s b
  | signedHalfReg => exact extended_valueAt_signedHalf s b

/-- Settles O40: each form is one data read, which in internal memory answers the value extended. -/
theorem thumbLoads : Obligations.ThumbLoads := by
  intro k rd s
  rw [exec_loadT, finish_loadT]
  refine ⟨rfl, fun hin ha => ?_⟩
  rw [← widthBytes_loadTKind] at hin ha
  rw [dataRead_aligned_inside hin.1 ha, after, extended_valueAt_loadT]

/-- Settles O41: each form is one data write of the low part of Rd. -/
theorem thumbStores : Obligations.ThumbStores := by
  intro k rd s
  have hexec : exec (.storeT k rd) s = _ := (exec_storeT k rd s).trans (finish_storeT s _ _ rd)
  rw [hexec]
  exact ⟨rfl, fun hin ha => after_dataWrite_inside hin.1 ha _ 0 false 0⟩

/-! ### The lists of the stack forms (R377, R378) -/

theorem mem_stackList {list : BitVec 8} {r : Bool} {last q : Reg} (h : q ∈ stackList list r last) : q.val < 8 ∨ q = last := by
  have hlow : q ∈ regsOf list → q.val < 8 := fun hq => BitVec.lt_of_getLsbD ((mem_regsOf list q).mp hq)
  cases r with
  | false => exact .inl (hlow h)
  | true => exact (List.mem_append.mp h).imp hlow List.mem_singleton.mp

theorem nodup_stackList (list : BitVec 8) (r : Bool) : (stackList list r 15).Nodup := by
  cases r with
  | false => exact nodup_regsOf list
  | true =>
    refine List.Nodup.append (nodup_regsOf list) (List.nodup_singleton 15) (List.disjoint_singleton.mpr fun h => ?_)
    exact absurd (BitVec.lt_of_getLsbD ((mem_regsOf list 15).mp h)) (by decide)

theorem sp_notMem_stackList (list : BitVec 8) (r : Bool) : 13 ∉ stackList list r 15 :=
  fun h => absurd (mem_stackList h) (by decide)

theorem isEmpty_stackList {list : BitVec 8} {r : Bool} (last : Reg) (h : (list != 0 || r) = true) :
    (stackList list r last).isEmpty = false := by
  rw [← stackRegs_eq, isEmpty_stackRegs, ← Bool.not_eq_true', Bool.not_and, Bool.not_not]
  exact h

theorem regsOf_isEmpty_of_ne {list : BitVec 8} (h : (list != 0) = true) : (regsOf list).isEmpty = false := by
  rw [isEmpty_regsOf (by decide)]
  exact (Bool.not_eq_true' _).mp h

/-! ### What the accesses leave (R377 to R380) -/

theorem finish_push (s : State) {regs : List Reg} (h : regs.isEmpty = false) :
    finish (s.push regs) =
      after (blockFrom s (s.readReg 13 - span regs.length)) fun b => after (wordsWritten s b (regs.map s.readReg)) fun t =>
        .next (t.advance.writeReg 13 (s.readReg 13 - span regs.length)) := by
  rw [State.push, h, faultIf_false, ok_bind]
  exact finish_storeBlock_bind ..

theorem finish_storeMultipleT (s : State) {rb : Reg} {regs : List Reg} (h : regs.isEmpty = false)
    (hb : (regs.contains rb && regs.head? != some rb) = false) :
    finish (s.storeMultipleT rb regs) =
      after (blockFrom s (s.readReg rb)) fun b => after (wordsWritten s b (regs.map s.readReg)) fun t =>
        .next (t.advance.writeReg rb (s.readReg rb + span regs.length)) := by
  rw [State.storeMultipleT, h, faultIf_false, ok_bind, hb, faultIf_false, ok_bind]
  exact finish_storeBlock_bind ..

/-- A block store and its writeback in internal memory. -/
theorem after_blockWritten_writeReg_inside {s : State} {a : Word} {regs : List Reg} (hin : inMemory s a (4 * regs.length))
    (ha : a.toNat % 4 = 0) (r : Reg) (v : Word) :
    (after (blockFrom s a) fun b => after (wordsWritten s b (regs.map s.readReg)) fun t => .next (t.advance.writeReg r v)) =
      .next { s.advance.writeReg r v with mem := writeWords s s.mem a.toNat (regs.map s.readReg) } := by
  rw [after_blockWritten_inside hin ha]
  exact congrArg Host.Outcome.next (writeReg_withMem s.advance _ r v)

/-- Settles O42: an admitted PUSH is its block store below SP and then SP's new value. -/
theorem pushStores : Obligations.PushStores := by
  intro r list s hw
  rw [exec_pushT, finish_push s (isEmpty_stackList 14 hw)]
  exact ⟨rfl, fun hin ha => after_blockWritten_writeReg_inside hin ha 13 _⟩

theorem finish_loadMultipleT (s : State) {rb : Reg} {regs : List Reg} (h : regs.isEmpty = false) (hb : regs.contains rb = false) :
    finish (s.loadMultipleT rb regs) =
      after (blockFrom s (s.readReg rb)) fun b => after (wordsRead s b regs.length) fun x =>
        .next (blockLoaded x.2 true rb (s.readReg rb + span regs.length) regs x.1) := by
  rw [State.loadMultipleT, h, faultIf_false, ok_bind, hb, faultIf_false, ok_bind]
  refine (finish_loadBlock_bind ..).trans (after_congr fun b _ => after_congr fun x _ => ?_)
  rw [blockLoaded, ← writeRegs_eq]
  rfl

/-- POP, after its loads: the PC from the last word, which stays in Thumb state (R378; 40_core_condition_shifter.md R169). -/
def popOutcome (q : State) (r : Bool) (v : Word) : Host.Outcome State Fault Refusal :=
  if r = false then .next q
  else if v.getLsbD 0 then .next { q with pc := v &&& 0xFFFFFFFE#32 }
  else .fault (.unpredictable .popPcInterwork)

theorem finish_writePcPop (q : State) (r : Bool) (v : Word) : finish (if r then q.writePcPop v else pure q) = popOutcome q r v := by
  cases r with
  | false => rfl
  | true => exact apply_ite finish (v.getLsbD 0 = true) (.ok _) (.error _)

theorem finish_pop (s : State) {regs : List Reg} (r : Bool) (h : regs.isEmpty = false) :
    finish (s.pop regs r) =
      after (blockFrom s (s.readReg 13)) fun b => after (wordsRead s b regs.length) fun x =>
        popOutcome (blockLoaded x.2 true 13 (s.readReg 13 + span regs.length) regs x.1) r (lastOf x.1) := by
  rw [State.pop, h, faultIf_false, ok_bind]
  refine (finish_loadBlock_bind ..).trans (after_congr fun b _ => after_congr fun x _ => ?_)
  rw [← finish_writePcPop, blockLoaded, ← writeRegs_eq]
  rfl

theorem popOutcome_next {q : State} {r : Bool} {v : Word} (h : r = false ∨ v.getLsbD 0 = true) :
    popOutcome q r v = .next { q with pc := if r then v &&& 0xFFFFFFFE#32 else q.pc } := by
  cases r with
  | false => rfl
  | true => exact if_pos (h.resolve_left (by decide))

theorem popOutcome_fault {q : State} {r : Bool} {v : Word} (hr : r = true) (hv : v.getLsbD 0 = false) :
    popOutcome q r v = .fault (.unpredictable .popPcInterwork) := by
  rw [popOutcome, hr, hv]
  rfl

theorem exec_popT (r : Bool) (list : BitVec 8) (s : State) : exec (.popT r list) s = finish (s.pop (stackList list r 15) r) := by
  rw [← stackRegs_eq]
  rfl

theorem exec_ldmiaT (rb : LowReg) (list : BitVec 8) (s : State) :
    exec (.ldmiaT rb list) s = finish (s.loadMultipleT rb.reg (regsOf list)) := rfl

theorem loaded.mono {s t : State} {b : Bank} {regs : List Reg} {a : Nat} {l m : List Reg} (h : loaded s t b regs a l)
    (hsub : ∀ r ∈ l, r ∈ m) : loaded s t b regs a m :=
  ⟨h.1, fun p hp => h.2 p fun r hr => hp r (hsub r hr)⟩

theorem blockLoaded_wordsAt (s : State) (w : Bool) (rn : Reg) (m : Word) (regs : List Reg) (a : Nat) :
    blockLoaded s w rn m regs (wordsAt s a regs.length) = blockReturned s w rn m regs a s.cpsr s.advance.pc := by
  rw [← blockReturned_of_pc, ← blockLoaded_pc s w rn m regs (wordsAt s a regs.length)]

/-- A block load with writeback in internal memory, in the view of the mode, which it keeps. -/
theorem blockReturned_thumb {s : State} {rn : Reg} {regs : List Reg} (hrn : rn ≠ 15) (hmem : rn ∉ regs) (hnd : regs.Nodup)
    (m x : Word) (a : Nat) :
    loaded s (blockReturned s true rn m regs a s.cpsr x) s.bank regs a (rn :: regs) ∧
      (blockReturned s true rn m regs a s.cpsr x).readReg rn = m ∧
      blockReturned s true rn m regs a s.cpsr x = { s with regs := (blockReturned s true rn m regs a s.cpsr x).regs, pc := x } :=
  ⟨(blockReturned_loaded hnd).mono fun r hr => by simpa [baseIf, or_comm] using hr,
    readIn_blockReturned_base hrn (fun _ => hmem) rfl, blockReturned_eq⟩

/-- Settles O43: an admitted POP is its block load from SP, SP's new value, and the PC from the last word where the list has it. -/
theorem popLoads : Obligations.PopLoads := by
  intro r list s hw
  have hne := isEmpty_stackList 15 hw
  have hlen : (stackList list r 15).length ≠ 0 := fun h => by
    rw [List.length_eq_zero_iff.mp h] at hne
    cases hne
  rw [exec_popT, finish_pop s r hne]
  refine ⟨rfl, fun hin ha => ?inside⟩
  rw [after_blockRead_inside hin ha, lastOf_wordsAt s _ hlen]
  refine ⟨fun h => ?next, popOutcome_fault⟩
  rw [popOutcome_next h, blockReturned_of_pc, blockLoaded_pc]
  exact ⟨_, rfl, blockReturned_thumb (by decide) (sp_notMem_stackList list r) (nodup_stackList list r) _ _ _⟩

theorem lowReg_ne_pc : ∀ rb : LowReg, rb.reg ≠ 15 := by decide

theorem stmiaT_check_admitted {rb : LowReg} {list : BitVec 8} (h : storeBaseOk list rb.val = true) :
    ((regsOf list).contains rb.reg && (regsOf list).head? != some rb.reg) = false := by
  rw [baseCheck_eq, ← Bool.not_eq_true', ← h, notLowest, Bool.not_and, bne, Bool.not_not]
  rfl

/-- Settles O44: an admitted form is its block store or load from the base, and the base's new value. -/
theorem thumbMultiple : Obligations.ThumbMultiple := by
  refine ⟨fun rb list s hw => ?stmia, fun rb list s hw => ?ldmia⟩
  case stmia =>
    obtain ⟨hlist, hbase⟩ := Bool.and_eq_true_iff.mp hw
    rw [exec_stmiaT, finish_storeMultipleT s (regsOf_isEmpty_of_ne hlist) (stmiaT_check_admitted hbase)]
    exact ⟨rfl, fun hin ha => after_blockWritten_writeReg_inside hin ha rb.reg _⟩
  case ldmia =>
    obtain ⟨hlist, hbase⟩ := Bool.and_eq_true_iff.mp hw
    have hbit : list.getLsbD rb.reg.val = false := (Bool.not_eq_true' _).mp hbase
    have hmem : rb.reg ∉ regsOf list := by rw [mem_regsOf, hbit]; decide
    rw [exec_ldmiaT, finish_loadMultipleT s (regsOf_isEmpty_of_ne hlist) ((contains_regsOf list rb.reg).trans hbit)]
    refine ⟨rfl, fun hin ha => ?inside⟩
    rw [after_blockRead_inside hin ha]
    exact ⟨_, congrArg Host.Outcome.next (blockLoaded_wordsAt ..), blockReturned_thumb (lowReg_ne_pc rb) hmem (nodup_regsOf list) _ _ _⟩

end Sys2Proof.Claims
end

section
/-! Channel accesses (20_memory.md R74 to R76), the state at creation (70_reset_and_hazards.md R430) and what the host does between steps
(60_exceptions.md R426; 70_reset_and_hazards.md R434). -/
namespace Sys2Proof.Claims
open Sys2Proof Sys2Proof.Machine

/-! ### Channels -/

theorem readChannels_eq (a : Word) (w : Width) (cs : List Channel) (s : State) :
    State.readChannels a w cs s =
      { s with
        draws := s.draws + cs.length
        events := s.events ++ cs.mapIdx fun k c =>
          Event.channelRead c.id (a.toNat - c.base) w (truncate w (Config.deviceAnswer (s.draws + k))) } := by
  induction cs generalizing s with
  | nil => simp [State.readChannels]
  | cons c cs ih =>
    rw [State.readChannels, ih]
    simp [List.mapIdx_cons, State.answer, Nat.add_assoc, Nat.add_comm 1]

theorem writeChannels_eq (a : Word) (w : Width) (v : Word) (cs : List Channel) (s : State) :
    State.writeChannels a w v cs s =
      { s with events := s.events ++ cs.map fun c => Event.channelWrite c.id (a.toNat - c.base) w (truncate w v) } := by
  induction cs generalizing s with
  | nil => simp [State.writeChannels]
  | cons c cs ih =>
    rw [State.writeChannels, ih]
    simp

theorem channelRead_covered {s : State} {a : Word} (h : covering s a ≠ []) (w : Width) :
    s.channelRead a w = (truncate w (Config.deviceAnswer s.draws), State.readChannels a w (covering s a) s) := by
  rw [State.channelRead, matching_eq_covering]
  cases hc : covering s a with
  | nil => exact absurd hc h
  | cons c cs => rfl

/-- Settles O48: the channels are invoked one after another, each adding its event. -/
theorem channelAccesses : Obligations.ChannelAccesses := by
  intro s a v w habove hcov
  rw [memRead_above habove, memWrite_above habove, channelRead_covered hcov, State.channelWrite, matching_eq_covering, readChannels_eq,
    writeChannels_eq]
  exact ⟨rfl, rfl⟩

/-! ### Creation -/

theorem readPhys_create (k : Config) (p : PhysReg) :
    (State.create k).readPhys p = if p = .sp (bankOf k.initMode) then k.stackBase else 0 := by
  unfold State.readPhys State.create
  split_ifs with h
  · subst h
    simp
  · have hi : (physIndex (.sp (bankOf k.initMode))).val ≠ (physIndex p).val := fun e => h (physIndex_injective _ _ (Fin.ext e)).symm
    simp [hi]

theorem mode?_create (k : Config) : (State.create k).mode? = some k.initMode := by
  have hmode : ∀ (m : Mode) (e : Bool), modeOf (get (put 32 0 (modeBits m) ||| put 32 9 (flagBits e)) 0 5) = some m := by
    intro m e
    cases m <;> cases e <;> rfl
  exact hmode k.initMode k.initE

theorem getLsbD_cpsr_create (k : Config) {i : Nat} (h5 : 5 ≤ i) : (State.create k).cpsr.getLsbD i = (decide (i = 9) && k.initE) := by
  have hmode : (put 32 0 (modeBits k.initMode)).getLsbD i = false := by
    rw [put_getLsbD, Nat.sub_zero, BitVec.getLsbD_of_ge _ _ h5, Bool.and_false]
  rw [State.create, BitVec.getLsbD_or, hmode, Bool.false_or, put_getLsbD]
  rcases Nat.lt_trichotomy i 9 with h | rfl | h
  · rw [decide_eq_false (Nat.not_le.mpr h), decide_eq_false (Nat.ne_of_lt h), Bool.and_false, Bool.false_and, Bool.false_and]
  · cases k.initE <;> rfl
  · rw [BitVec.getLsbD_of_ge _ _ (by omega), decide_eq_false (Nat.ne_of_gt h), Bool.and_false, Bool.false_and]

theorem inv_create {k : Config} (h : k.WellFormed) : (State.create k).Inv :=
  ⟨h, ⟨⟨List.Pairwise.nil, nofun⟩, nofun⟩, by rw [State.ModeOk, mode?_create]; rfl, List.nodup_nil⟩

/-- Settles O59: creation writes each element, and the status word has the mode field and E alone. -/
theorem creationState : Obligations.CreationState := by
  intro k
  refine ⟨readPhys_create k, rfl, mode?_create k, ?_, fun i h5 h9 => ?_, fun j => ?_, fun _ => rfl, rfl, rfl, rfl, rfl, inv_create, rfl⟩
  · rw [State.bigEndian, getLsbD_cpsr_create k (by decide)]
    rfl
  · rw [getLsbD_cpsr_create k h5, decide_eq_false h9, Bool.false_and]
  · exact Vector.getElem_replicate _

/-! ### The registry and the loader -/

theorem register_duplicate {s : State} {c : Channel} (h : ∃ d ∈ s.channels, d.id = c.id) : s.register c = s := by
  rw [State.register, if_pos (by simpa using h)]

theorem register_new {s : State} {c : Channel} (h : ∀ d ∈ s.channels, d.id ≠ c.id) :
    s.register c = { s with channels := s.channels ++ [c] } := by
  rw [State.register, if_neg (by simpa using h)]

theorem register_inv {s : State} (h : s.Inv) (c : Channel) : (s.register c).Inv := by
  by_cases hdup : ∃ d ∈ s.channels, d.id = c.id
  · rwa [register_duplicate hdup]
  · obtain ⟨hcfg, hmem, hmode, hch⟩ := h
    have hnew : ∀ d ∈ s.channels, d.id ≠ c.id := fun d hd he => hdup ⟨d, hd, he⟩
    rw [register_new hnew]
    refine ⟨hcfg, hmem, hmode, ?_⟩
    rw [State.ChannelsOk, List.map_append]
    exact hch.append (List.nodup_singleton _) (List.disjoint_singleton.mpr (by simpa using hnew))

theorem unregister_eq (s : State) (id : Nat) :
    s.unregister id = { s with channels := s.channels.filter fun d => decide (d.id ≠ id) } := by
  rw [State.unregister]
  simp [bne, Bool.beq_eq_decide_eq]

theorem unregister_absent {s : State} {id : Nat} (h : ∀ d ∈ s.channels, d.id ≠ id) : s.unregister id = s := by
  rw [unregister_eq, List.filter_eq_self.mpr fun d hd => decide_eq_true (h d hd)]

theorem unregister_inv {s : State} (h : s.Inv) (id : Nat) : (s.unregister id).Inv := by
  obtain ⟨hcfg, hmem, hmode, hch⟩ := h
  exact ⟨hcfg, hmem, hmode, (List.filter_sublist.map _).nodup hch⟩

theorem load_refused {s : State} {bytes : List Byte} {offset : Nat} (h : s.cfg.memSize < offset + bytes.length) (entry : Word)
    (big : Bool) : s.load bytes offset entry big = none := if_neg (Nat.not_le.mpr h)

/-- The state after a load that fits. -/
def stateLoaded (s : State) (bytes : List Byte) (offset : Nat) (entry : Word) (big : Bool) : State :=
  { s.setBigEndian big with mem := s.mem.writeBytes offset bytes, pc := entry }

theorem load_fits {s : State} {bytes : List Byte} {offset : Nat} (h : offset + bytes.length ≤ s.cfg.memSize) (entry : Word)
    (big : Bool) : s.load bytes offset entry big = some (stateLoaded s bytes offset entry big) := if_pos h

theorem stateLoaded_inv {s : State} (hs : s.Inv) {bytes : List Byte} {offset : Nat} (h : offset + bytes.length ≤ s.cfg.memSize)
    (entry : Word) (big : Bool) : (stateLoaded s bytes offset entry big).Inv := by
  obtain ⟨hcfg, ⟨hwf, hin⟩, hmode, hch⟩ := hs
  refine ⟨hcfg, ⟨Memory.wf_writeBytes hwf _ _, fun x hx => ?_⟩, ?_, hch⟩
  · rcases Memory.mem_writeBytes hx with ⟨_, hlt⟩ | hx
    · exact Nat.lt_of_lt_of_le hlt h
    · exact hin x hx
  · exact (congrArg Option.isSome (State.setBigEndian_mode? s big)).trans hmode

/-- Settles O60: the registry keeps the ids unique, and the loader's bytes lie in internal memory. -/
theorem hostOperations : Obligations.HostOperations := by
  refine ⟨fun s c => ⟨register_duplicate, register_new, fun h => register_inv h c⟩,
    fun s id => ⟨unregister_eq s id, unregister_absent, fun h => unregister_inv h id⟩,
    fun s bytes offset entry big => ⟨fun h => load_refused h entry big, fun h hs =>
      ⟨_, load_fits h entry big, stateLoaded_inv hs h entry big, rfl, ?_, ?_, fun a => ?_⟩⟩⟩
  · exact (setBit_getLsbD _ 9 9 _ (by decide)).trans (if_pos rfl)
  · exact setBit_and_not _ 9 _ (by decide) 0x200#32 (by decide)
  · exact Memory.read_writeBytes hs.2.1.1 offset a bytes

end Sys2Proof.Claims
end
